-- ==== Sys2Proof/Word.lean ====
section
/-! DEFINITION. Bytes, and banks of a fixed number of like things (portals, meters, channels) with
one read, one write and one way to fill them. -/

namespace Sys2Proof

/-- A byte of a frame or record (R176). -/
abbrev Byte := BitVec 8

/-- Reads one of a fixed number of like things. -/
def rd {α : Type} {n : Nat} (v : Vector α n) (i : Fin n) : α := v[i.val]

/-- Replaces one of a fixed number of like things. -/
def wr {α : Type} {n : Nat} (v : Vector α n) (i : Fin n) (x : α) : Vector α n := v.set i.val x

/-- Fills a bank from a function of the index. -/
def tab {α : Type} {n : Nat} (f : Fin n → α) : Vector α n := Vector.ofFn f

@[simp] theorem rd_wr_self {α : Type} {n : Nat} (v : Vector α n) (i : Fin n) (x : α) :
    rd (wr v i x) i = x := by
  simp [rd, wr]

@[simp] theorem rd_wr_of_ne {α : Type} {n : Nat} (v : Vector α n) {i j : Fin n} (x : α)
    (h : i ≠ j) : rd (wr v i x) j = rd v j := by
  have : i.val ≠ j.val := fun e => h (Fin.ext e)
  simp [rd, wr, this]

theorem rd_wr {α : Type} {n : Nat} (v : Vector α n) (i j : Fin n) (x : α) :
    rd (wr v i x) j = if i = j then x else rd v j := by
  by_cases h : i = j
  · subst h; simp
  · simp [h]

@[simp] theorem rd_tab {α : Type} {n : Nat} (f : Fin n → α) (i : Fin n) : rd (tab f) i = f i := by
  simp [rd, tab]

/-- Two banks that read the same at every index are equal. -/
theorem bank_ext {α : Type} {n : Nat} {v w : Vector α n} (h : ∀ i, rd v i = rd w i) : v = w := by
  apply Vector.ext
  intro i hi
  exact h ⟨i, hi⟩

@[simp] theorem wr_rd_self {α : Type} {n : Nat} (v : Vector α n) (i : Fin n) :
    wr v i (rd v i) = v := by
  apply bank_ext
  intro j
  rw [rd_wr]
  split
  · next h => rw [h]
  · rfl

@[simp] theorem wr_wr {α : Type} {n : Nat} (v : Vector α n) (i : Fin n) (x y : α) :
    wr (wr v i x) i y = wr v i y := by
  apply bank_ext
  intro j
  rw [rd_wr, rd_wr, rd_wr]
  split <;> rfl

end Sys2Proof
end

