-- ==== Sys2Proof/Syntax.lean ====
section
/-! DEFINITION. The commands and events the part takes: one constructor per row of
spec/opcode_table.json, with what crosses the boundary at that event as operands. -/

namespace Sys2Proof

/-- The three supervising masters (R176 codes them 0 A, 1 B, 2 L). -/
inductive Seat where
  | A
  | B
  | L
  deriving DecidableEq, Repr

/-- Header bytes 1 to 3 of a seat frame (R177); byte 0, the command code, is the constructor. -/
structure Header where
  /-- Portal mask, or object class in bits 0 to 4 and object number in bits 5 to 7. -/
  target : Byte
  /-- Index in bits 0 to 5, stepping in bits 6 and 7. -/
  place : Byte
  /-- Count, 0 to 255. -/
  count : Byte
  deriving DecidableEq, Repr

/-- The two moments of one READ record that R148 gives effects to. -/
inductive RecordPhase where
  /-- The first byte of the record begins to be shifted out: the snapshot is taken. -/
  | start
  /-- The last byte of the record has been shifted out: the record is delivered. -/
  | delivery
  deriving DecidableEq, Repr

/-- The commands that carry records in (R143, second table). -/
inductive RecordCommand where
  | write
  | pushClaim
  | withdraw
  | withdrawAny
  | takeChannel
  | setChannel
  | releaseChannel
  | trip
  | tripReset
  | setSeat
  deriving DecidableEq, Repr

/-- Where in its frame a seat releases select (R142, R144, R151). Bits of a byte that is not complete do
not count: a release inside the first byte after the frame's last event is one at that event, a record
boundary: a DESIGN CHOICE (log 47). -/
inductive Cut where
  /-- No byte is complete since the frame's last event: a record boundary, the tail, or, when no
  header has come, a void frame. -/
  | boundary
  /-- Inside the header (one to three bytes complete), or inside a record of a transfer. -/
  | inside
  /-- The header of a record-carrying command is complete, and so are `bytes` bytes of its first
  record, fewer than the record has. -/
  | firstRecord (command : RecordCommand) (header : Header) (bytes : Nat)
  deriving DecidableEq, Repr

/-- Bytes that a meter line or a lamp line receives one after another with less than 1 ms of silence
between them, up to a silence of at least 1 ms: what R180 takes for one frame (log 19). -/
structure Burst where
  /-- At least 1 ms of silence came before the first byte. -/
  silence : Bool
  bytes : List Byte
  deriving DecidableEq, Repr

/-- One command or event: a row of spec/opcode_table.json. -/
inductive Instr where
  /-- POWER_ON (R4). -/
  | powerOn
  /-- RESET_LINE (R4). -/
  | resetLine
  /-- FRAME_BEGIN (R142). -/
  | frameBegin (seat : Seat)
  /-- BAD_COMMAND (R143): a complete header with this command code. -/
  | badCommand (seat : Seat) (code : Byte)
  /-- NOP (R155). -/
  | nop (seat : Seat)
  /-- READ (R154): its header is complete. -/
  | read (seat : Seat) (header : Header)
  /-- READ_RECORD (R148): the start or the delivery of one record. -/
  | readRecord (seat : Seat) (phase : RecordPhase)
  /-- WRITE (R162): its header and its first record. -/
  | write (seat : Seat) (header : Header) (bytes : List Byte)
  /-- WRITE_RECORD (R147): a later record is complete. -/
  | writeRecord (seat : Seat) (bytes : List Byte)
  /-- PUSH_CLAIM (R71): its claim request record is complete. -/
  | pushClaim (seat : Seat) (header : Header) (bytes : List Byte)
  /-- WITHDRAW (R77): its claim number record is complete. -/
  | withdraw (seat : Seat) (header : Header) (bytes : List Byte)
  /-- WITHDRAW_ANY (R78): its claim number record is complete, or its header is refused. -/
  | withdrawAny (seat : Seat) (header : Header) (bytes : List Byte)
  /-- TAKE_CHANNEL (R103). -/
  | takeChannel (seat : Seat) (header : Header) (bytes : List Byte)
  /-- SET_CHANNEL (R104). -/
  | setChannel (seat : Seat) (header : Header) (bytes : List Byte)
  /-- RELEASE_CHANNEL (R105). -/
  | releaseChannel (seat : Seat) (header : Header) (bytes : List Byte)
  /-- TRIP (R115). -/
  | trip (seat : Seat) (header : Header) (bytes : List Byte)
  /-- TRIP_RESET (R119). -/
  | tripReset (seat : Seat) (header : Header) (bytes : List Byte)
  /-- TAKE_GRANT (R159). -/
  | takeGrant (seat : Seat) (header : Header)
  /-- SEIZE_GRANT (R160). -/
  | seizeGrant (seat : Seat) (header : Header)
  /-- RELEASE_GRANT (R161). -/
  | releaseGrant (seat : Seat) (header : Header)
  /-- COMMIT (R163). -/
  | commit (seat : Seat) (header : Header)
  /-- DISCARD (R166). -/
  | discard (seat : Seat) (header : Header)
  /-- STORE (R167). -/
  | store (seat : Seat)
  /-- SET_SEAT (R153). -/
  | setSeat (seat : Seat) (header : Header) (bytes : List Byte)
  /-- CLEAR_CONDITION (R155). -/
  | clearCondition (seat : Seat)
  /-- RESTART (R156). -/
  | restart (seat : Seat)
  /-- FRAME_END (R151). -/
  | frameEnd (seat : Seat) (cut : Cut)
  /-- SEAT_SILENT (R151): the passing of the silence deadline. -/
  | seatSilent (seat : Seat)
  /-- READING_FRAME (R15, R16): what a meter line receives up to a silence (R180, log 19). -/
  | readingFrame (meter : Fin 8) (burst : Burst)
  /-- STALE_DEADLINE (R21). -/
  | staleDeadline (meter : Fin 8)
  /-- HOLD_TIMER_EXPIRY (R27). -/
  | holdTimerExpiry (portal : Fin 4)
  /-- MISMATCH (R34): the expiry of the mismatch timer. -/
  | mismatch (portal : Fin 4)
  /-- DWELL_EXPIRY (R49). -/
  | dwellExpiry (portal : Fin 4)
  /-- CLAIM_EXPIRED (R79): one copy, at its own portal. -/
  | claimExpired (portal : Fin 4) (number : Nat)
  /-- RAMP_INTERVAL (R100). -/
  | rampInterval
  /-- OVERLAP_ON_EXPIRY (R91). -/
  | overlapOnExpiry (portal : Fin 4) (zone : Fin 5)
  /-- OVERLAP_OFF_EXPIRY (R92). -/
  | overlapOffExpiry (portal : Fin 4) (zone : Fin 5)
  /-- CONFIRM_TIMEOUT (R94). -/
  | confirmTimeout (portal : Fin 4) (zone : Fin 5)
  /-- FIRE_INPUT_CHANGE (R111): the electrical level the input changes to. -/
  | fireInputChange (portal : Fin 4) (high : Bool)
  /-- DEBOUNCE_EXPIRY (R112). -/
  | debounceExpiry (portal : Fin 4)
  /-- FRAME_SENT (R128). -/
  | frameSent (line : Fin 4)
  /-- STATUS_REPLY (R131): what a lamp line receives up to a silence (R180, log 19). -/
  | statusReply (line : Fin 4) (burst : Burst)
  /-- REPLY_WINDOW_EXPIRY (R132). -/
  | replyWindowExpiry (line : Fin 4)
  /-- ADOPTION (R165). -/
  | adoption (portal : Fin 4)
  /-- STORE_WRITE_END (R167): whether the verify holds. -/
  | storeWriteEnd (verified : Bool)
  deriving DecidableEq, Repr

end Sys2Proof
end

