-- ==== Sys2Proof/WellFormed.lean ====
section
/-! DEFINITION. Which commands the outside can send: the checks that the operand types alone do not
make. A command that fails one of them describes no event of the part. -/

namespace Sys2Proof

/-- The length in bytes of the record a command carries in (R178), where the class does not matter. -/
def RecordCommand.recordBytes : RecordCommand → Header → Nat
  | .write, h =>
    match h.target.toNat % 32 with
    | 16 => 24
    | 17 => 2
    | 18 => 16
    | _ => 8
  | .pushClaim, _ => 8
  | .withdraw, _ => 2
  | .withdrawAny, _ => 2
  | .takeChannel, _ => 4
  | .setChannel, _ => 4
  | .releaseChannel, _ => 4
  | .trip, _ => 2
  | .tripReset, _ => 2
  | .setSeat, _ => 4

/-- A select release is well-formed: a first record that was cut short is shorter than the record. -/
def Cut.wellFormed : Cut → Bool
  | .boundary => true
  | .inside => true
  | .firstRecord c h n => decide (n < c.recordBytes h)

/-- The checks on each command's operands: a BAD_COMMAND code names no command (R177), a record has
its fixed length (R178; none comes with a header that R143 refuses), a received frame has at least one byte (R180), a claim number lies from 1
to 65,535 (R63). -/
def Instr.wellFormed : Instr → Bool
  | .powerOn => true
  | .resetLine => true
  | .frameBegin _ => true
  | .badCommand _ code => decide (20 ≤ code.toNat)
  | .nop _ => true
  | .read _ _ => true
  | .readRecord _ _ => true
  | .write _ h bytes => decide (bytes.length = RecordCommand.write.recordBytes h ∨ bytes = [])
  | .writeRecord _ bytes => decide (bytes.length = 24 ∨ bytes.length = 2 ∨ bytes.length = 16 ∨ bytes.length = 8)
  | .pushClaim _ _ bytes => decide (bytes.length = 8)
  | .withdraw _ _ bytes => decide (bytes.length = 2)
  | .withdrawAny seat _ bytes => decide (bytes.length = 2 ∨ (seat ≠ .L ∧ bytes = []))
  | .takeChannel _ _ bytes => decide (bytes.length = 4)
  | .setChannel _ _ bytes => decide (bytes.length = 4)
  | .releaseChannel _ _ bytes => decide (bytes.length = 4)
  | .trip _ _ bytes => decide (bytes.length = 2)
  | .tripReset _ _ bytes => decide (bytes.length = 2)
  | .takeGrant _ _ => true
  | .seizeGrant _ _ => true
  | .releaseGrant _ _ => true
  | .commit _ _ => true
  | .discard _ _ => true
  | .store _ => true
  | .setSeat _ _ bytes => decide (bytes.length = 4)
  | .clearCondition _ => true
  | .restart _ => true
  | .frameEnd _ cut => cut.wellFormed
  | .seatSilent _ => true
  | .readingFrame _ burst => decide (burst.bytes ≠ [])
  | .staleDeadline _ => true
  | .holdTimerExpiry _ => true
  | .mismatch _ => true
  | .dwellExpiry _ => true
  | .claimExpired _ number => decide (1 ≤ number ∧ number ≤ 65535)
  | .rampInterval => true
  | .overlapOnExpiry _ _ => true
  | .overlapOffExpiry _ _ => true
  | .confirmTimeout _ _ => true
  | .fireInputChange _ _ => true
  | .debounceExpiry _ => true
  | .frameSent _ => true
  | .statusReply _ burst => decide (burst.bytes ≠ [])
  | .replyWindowExpiry _ => true
  | .adoption _ => true
  | .storeWriteEnd _ => true

end Sys2Proof
end

