-- ==== Sys2Proof/Decode.lean ====
section
/-! DEFINITION. The table's bits: no row of spec/opcode_table.json gives any, so no word spells a
command. The header of a seat frame spells one by the code table of R177. (The fields of headers and
records, and the bytes of meter and lamp line frames, are decoded in Machine/Operands.lean.) -/

namespace Sys2Proof

/-- The command that the low `nbits` bits of `w` spell by the table: none, since no row gives bits. -/
def decodeTableWord (_nbits _w : Nat) : Option Instr := none

/-- The command that a code byte names, with the rest of its header and its first record (R177). A
value with no command is BAD_COMMAND. -/
def commandOf (seat : Seat) (code : Byte) (header : Header) (record : List Byte) : Instr :=
  match code.toNat with
  | 0 => .nop seat
  | 1 => .read seat header
  | 2 => .write seat header record
  | 3 => .pushClaim seat header record
  | 4 => .withdraw seat header record
  | 5 => .withdrawAny seat header record
  | 6 => .takeChannel seat header record
  | 7 => .setChannel seat header record
  | 8 => .releaseChannel seat header record
  | 9 => .trip seat header record
  | 10 => .tripReset seat header record
  | 11 => .takeGrant seat header
  | 12 => .seizeGrant seat header
  | 13 => .releaseGrant seat header
  | 14 => .commit seat header
  | 15 => .discard seat header
  | 16 => .store seat
  | 17 => .setSeat seat header record
  | 18 => .clearCondition seat
  | 19 => .restart seat
  | _ => .badCommand seat code

/-- The command that the bytes of a seat frame begin: the four of the header, in the order of R177, and
those of the record; none while the header is not complete. -/
def frameCommand (seat : Seat) (bytes : List Byte) : Option Instr :=
  match bytes with
  | code :: target :: place :: count :: record =>
    some (commandOf seat code { target := target, place := place, count := count } record)
  | _ => none

/-- Whether a code byte names a command (R143, R177). -/
def namesCommand (code : Byte) : Bool :=
  commandOf .L code { target := 0#8, place := 0#8, count := 0#8 } [] != .badCommand .L code

end Sys2Proof
end

