-- ==== Sys2Proof/Config.lean ====
section
/-! DEFINITION. The free values: what the spec leaves open in the middle of a rule after which the
part goes on. No body, so nothing can be proved about them but what holds of every value. -/

namespace Sys2Proof

/-- Whether the verify of a store write that ran to its 2.0 s bound holds (R167). The spec names both
results and does not say which comes. DESIGN CHOICE (log 12): free. -/
opaque Config.verifyHolds : Nat → Bool

/-- A byte of a READ record of a list whose entry has gone between the index test of R146 and the
start of the record (R148). The spec states no bytes there. DESIGN CHOICE (log 11): free. -/
opaque Config.freeByte : Nat → Byte

end Sys2Proof
end

