-- ==== Sys2Proof/Machine/State.lean ====
section
/-! DEFINITION. The state of the part as plain data, block by block, and the state after reset
(power-on with an invalid stored image). Field by field it is the list under '## State' of
INVENTORY.md. Levels of SWITCHED circuits are coded 0 (OFF) and 1000 (ON) as R176 codes them.
Moments are milliseconds of the time base, stamps are tenths of a second of uptime, both since the
last reset and held without the wrap that a reading of them has (log 7). -/

namespace Sys2Proof.Machine

/-! ### Configuration: portal sets (chapters 1 and 3) -/

/-- The portal record (R8). Zones are numbered 0 TH1, 1 TH2, 2 TR1, 3 TR2, 4 TR3 (R5). -/
structure PortalRecord where
  enabled : Bool
  zones : Vector Bool 5
  /-- The two meter binding slots. -/
  slot0 : Option (Fin 8)
  slot1 : Option (Fin 8)
  k : Nat
  /-- Window N, in readings. -/
  window : Nat
  /-- Stale time, in seconds. -/
  tStale : Nat
  /-- Hold time, in seconds. -/
  tHold : Nat
  upRate : Nat
  downRate : Nat
  /-- Overlap time, in tenths of a second. -/
  overlap : Nat
  /-- Boost share B of each zone, in per mille. -/
  boost : Vector Nat 5
  /-- Fire input polarity: true for active-low. -/
  activeLow : Bool
  fireArmed : Bool
  lineArmed : Bool
  deriving DecidableEq, Repr

/-- A stage row (R39). -/
structure StageRow where
  rise : Option Nat
  fall : Option Nat
  /-- Dwell, in seconds. -/
  dwell : Nat
  levels : Vector Nat 5
  deriving DecidableEq, Repr

/-- A channel record (R11); zone NONE is `none`. -/
structure ChannelRecord where
  channel : Fin 32
  zone : Option (Fin 5)
  switched : Bool
  failLevel : Nat
  minLevel : Nat
  deriving DecidableEq, Repr

/-- A portal set: portal record, stage table and the channel slots by driver address. -/
structure PortalSet where
  record : PortalRecord
  stageCount : Nat
  rows : Vector StageRow 12
  slots : Vector (Option ChannelRecord) 16
  deriving DecidableEq, Repr

/-- The empty row of R40. -/
def StageRow.empty : StageRow :=
  { rise := none, fall := none, dwell := 0, levels := Vector.replicate 5 0 }

/-- The default portal set: the defaults of R8, a one-row table, no channels (R14). That the one row has
a dwell of 0 is a DESIGN CHOICE (log 32): R14 gives its levels, and no dwell. -/
def PortalSet.default : PortalSet :=
  { record :=
      { enabled := false, zones := Vector.replicate 5 false, slot0 := none, slot1 := none,
        k := 60, window := 8, tStale := 5, tHold := 120, upRate := 200, downRate := 20,
        overlap := 10, boost := Vector.replicate 5 0, activeLow := false,
        fireArmed := true, lineArmed := true },
    stageCount := 1,
    rows := Vector.replicate 12 StageRow.empty,
    slots := Vector.replicate 16 none }

/-! ### Meter Intake and Portal Evaluator (chapter 2) -/

/-- The meter states of section 2.3. -/
inductive MeterState where
  | unused
  | starting
  | valid
  | stale
  | faulted
  deriving DecidableEq, Repr

/-- One entry of a sample ring (R18); `arrival` is a stamp. -/
structure Reading where
  seq : Nat
  luminance : Nat
  arrival : Nat
  deriving DecidableEq, Repr

/-- One meter of the Meter Intake. -/
structure Meter where
  state : MeterState
  /-- The sample ring, oldest first. -/
  ring : List Reading
  estimate : Option Nat
  badCount : Nat
  lastSeq : Option Nat
  window : Bool
  heater : Bool
  /-- The stale deadline, a stamp. -/
  staleDeadline : Option Nat
  deriving DecidableEq, Repr

/-- The meter source of a portal (R27). -/
inductive MeterSource where
  | none
  | live
  | hold
  | lost
  deriving DecidableEq, Repr

/-- The source status of a portal (R29). -/
inductive SourceStatus where
  | none
  | live
  | hold
  | lost
  | injected
  deriving DecidableEq, Repr

/-- One Portal Evaluator. -/
structure Evaluator where
  source : MeterSource
  status : SourceStatus
  /-- Access luminance A. -/
  luminance : Nat
  /-- The value A has through HOLD (R30). -/
  held : Nat
  /-- The last demand formed. -/
  demand : Nat
  /-- The moment the hold began, while the hold timer runs (R28). -/
  holdSince : Option Nat
  /-- The moment the mismatch timer started, while it runs (R33). -/
  mismatchSince : Option Nat
  mismatchReported : Bool
  deriving DecidableEq, Repr

/-! ### Stage Selector and Claim Arbiter (chapters 3 and 4) -/

/-- The base state of a portal (section 1.2). -/
inductive BaseState where
  | unconfigured
  | starting
  | running
  deriving DecidableEq, Repr

/-- One Stage Selector (section 3.3). -/
structure Selector where
  /-- Mode: true for FOLLOWING, false for AT_TOP. -/
  following : Bool
  automatic : Nat
  /-- The dwell timer's expiry moment, or `none` once it has run. -/
  dwell : Option Nat
  /-- Stage entered at, a stamp. -/
  enteredAt : Nat
  demandInUse : Option Nat
  deriving DecidableEq, Repr

/-- The claim kinds (R65). -/
inductive ClaimKind where
  | force
  | floor
  | cap
  | freeze
  | inject
  deriving DecidableEq, Repr

/-- A claim record (R63). -/
structure Claim where
  number : Nat
  seat : Seat
  kind : ClaimKind
  argument : Option Nat
  captured : Option Nat
  /-- Tie: true for KEPT, false for TIED. -/
  kept : Bool
  /-- The deadline, a stamp. -/
  deadline : Option Nat
  pushedAt : Nat
  deriving DecidableEq, Repr

/-- One Claim Arbiter. -/
structure Arbiter where
  /-- The claim list, oldest first. -/
  claims : List Claim
  effective : Nat
  /-- The automatic stage and the top stage as last handed over (R51, R72). -/
  automatic : Nat
  top : Nat
  deriving DecidableEq, Repr

/-! ### Zone Sequencer and Channel Output (chapter 5) -/

/-- The zone states of R86. -/
inductive ZoneState where
  | steady
  | ramping
  | boostOnWait
  | overlapOn
  | boostOffPrep
  | overlapOff
  | held
  deriving DecidableEq, Repr

/-- The Zone Sequencer of a present zone (R86). -/
structure Zone where
  state : ZoneState
  working : Nat
  latest : Option Nat
  /-- The switched target, ON or OFF; OFF for a zone without a switched channel. -/
  switched : Bool
  confirmed : Bool
  /-- The overlap timer's expiry moment while it runs. -/
  overlap : Option Nat
  /-- The confirm timer's expiry moment while it runs. -/
  confirm : Option Nat
  degraded : Bool
  deriving DecidableEq, Repr

/-- A seat's hold on a channel in HAND. -/
structure Hand where
  seat : Seat
  level : Nat
  deriving DecidableEq, Repr

/-- One Channel Output. AUTO is `hand = none`; an unassigned channel has no level and no target. A
channel that has left its portal keeps both until its farewell completes (R138, log 28). -/
structure Channel where
  hand : Option Hand
  level : Option Nat
  target : Option Nat
  /-- The line and the driver address of the farewell that the channel waits for since it last left a
  portal or was replaced, unless it has joined a portal since (R137, R138). -/
  farewell : Option (Fin 4 × Fin 16)
  deriving DecidableEq, Repr

/-- An unassigned channel (R14). -/
def Channel.unassigned : Channel := { hand := none, level := none, target := none, farewell := none }

/-! ### Lamp Line Controller (chapter 7) -/

/-- An entry of an update set (section 7.2). -/
structure Entry where
  addr : Fin 16
  level : Nat
  owner : Option (Fin 32)
  departing : Option (Fin 32)
  deriving DecidableEq, Repr

/-- The driver status of a channel's last reply (R131); `at` is a stamp. -/
structure DriverStatus where
  level : Nat
  lamp : Bool
  supply : Bool
  closed : Bool
  time : Nat
  deriving DecidableEq, Repr

/-- A channel on the line, with its miss count; it is LOST when the count is 3 (section 7.3). -/
structure Station where
  channel : Fin 32
  misses : Nat
  status : Option DriverStatus
  deriving DecidableEq, Repr

/-- What a line keeps of a departing channel until its farewell completes (R137, R138). -/
structure Departed where
  channel : Fin 32
  addr : Fin 16
  misses : Nat
  status : Option DriverStatus
  /-- The channel was replaced, and takes up its new address when this farewell completes. -/
  replaced : Bool
  /-- The farewell entered while an earlier one of the channel at this address was being sent, whose end
  does not complete it. -/
  later : Bool
  deriving DecidableEq, Repr

/-- How far a transaction has come: its frame is being sent (at the latest to the moment given), or
its reply window is open (to the moment given), a byte having been received since the frame ended or
not (R180). -/
inductive TxPhase where
  | sending (latest : Nat)
  | window (expiry : Nat) (heard : Bool)
  deriving DecidableEq, Repr

/-- The transaction in progress on a lamp line (R126, R128). -/
structure Transaction where
  /-- Kind: the level of a LEVEL frame, or `none` for a POLL. -/
  level : Option Nat
  addr : Fin 16
  /-- The channel on the line that the transaction is addressed to (R139). -/
  channel : Option (Fin 32)
  /-- The channel whose farewell the frame carries (R138). -/
  departing : Option (Fin 32)
  /-- The bytes of the frame that the part sends (R127, R180). -/
  frame : List Byte
  phase : TxPhase
  deriving DecidableEq, Repr

/-- One Lamp Line Controller. -/
structure LampLine where
  /-- The update set, oldest entry first. -/
  updates : List Entry
  tx : Option Transaction
  cursor : Fin 16
  /-- Line condition: true for DOWN. -/
  down : Bool
  /-- The channels on the line, by driver address. -/
  stations : Vector (Option Station) 16
  departed : List Departed
  deriving DecidableEq, Repr

/-! ### Trip Unit (chapter 6) -/

/-- The trip sources, also as a set (section 6.1). -/
inductive TripSource where
  | fire
  | line
  | order
  deriving DecidableEq, Repr

/-- A set of trip sources. -/
structure TripSet where
  fire : Bool
  line : Bool
  order : Bool
  deriving DecidableEq, Repr

/-- The ORDER latch: seat, reason and time (a stamp). -/
structure OrderLatch where
  seat : Seat
  reason : Nat
  time : Nat
  deriving DecidableEq, Repr

/-- One Trip Unit. The trip mask and polarity are read from the active record (R9). -/
structure TripUnit where
  /-- Fire input level: true for ACTIVE. -/
  fireLevel : Bool
  /-- Fire debounced state: true for ACTIVE. -/
  debounced : Bool
  /-- The debounce timer's expiry moment while it runs. -/
  debounce : Option Nat
  /-- The FIRE latch, with the time of latching. -/
  fireLatch : Option Nat
  orderLatch : Option OrderLatch
  /-- Line condition as last reported: true for DOWN. -/
  lineDown : Bool
  /-- The trip sources as last computed (R110). -/
  sources : TripSet
  /-- The TRIPPED overlay. -/
  overlay : Bool
  /-- The time the overlay was last set, a stamp; absent if not since the last reset (R123). -/
  overlayAt : Option Nat
  deriving DecidableEq, Repr

/-! ### Set Store (chapter 9) -/

/-- A shadow set, EDITABLE or LOCKED. -/
structure Shadow where
  set : PortalSet
  locked : Bool
  deriving DecidableEq, Repr

/-- A pending set, with the seat that committed it and the stamp of the commit. -/
structure PendingSet where
  set : PortalSet
  seat : Seat
  time : Nat
  deriving DecidableEq, Repr

/-- What the Set Store holds for a portal beside the active set. -/
structure Edit where
  holder : Option Seat
  shadow : Option Shadow
  pendingSet : Option PendingSet
  deriving DecidableEq, Repr

/-- A store write in flight (R167). -/
structure StoreWrite where
  seat : Seat
  /-- The uptime of acceptance, a stamp. -/
  time : Nat
  snapshot : Vector PortalSet 4
  /-- The moment by which the write ends. -/
  latest : Nat
  /-- A RESTART fell in the write, so its end posts no event (R168). -/
  silenced : Bool
  deriving DecidableEq, Repr

/-! ### Seat Port and Event Unit (chapters 8 and 10) -/

/-- The result codes of R150. -/
inductive ResultCode where
  | none
  | ok
  | short
  | badCommand
  | badObject
  | badIndex
  | badValue
  | seatDenied
  | notHolder
  | held
  | quota
  | noClaim
  | notOwner
  | locked
  | pendingBusy
  | invalid
  | storeBusy
  | active
  | notTripped
  deriving DecidableEq, Repr

/-- The condition word of a seat (section 8.3). -/
structure Condition where
  /-- A: accepted. -/
  a : Bool
  /-- C: changed. -/
  c : Bool
  /-- L: clamped or raised, since last cleared. -/
  l : Bool
  /-- P: an effect is deferred. -/
  p : Bool
  deriving DecidableEq, Repr

/-- The steppings of R146. -/
inductive Stepping where
  | ascend
  | descend
  | hold
  deriving DecidableEq, Repr

/-- A multi-record transfer in progress (R146 to R148). -/
structure Transfer where
  /-- Object class code. -/
  cls : Nat
  /-- The meter or portal that a list class names. -/
  owner : Nat
  index : Nat
  stepping : Stepping
  /-- Records still to move. -/
  left : Nat
  /-- Records accepted or delivered. -/
  done : Nat
  deriving DecidableEq, Repr

/-- The frame state of a seat port. -/
inductive FramePhase where
  /-- No frame in progress. -/
  | idle
  /-- A frame has begun and its header is not complete. -/
  | header
  /-- A READ moves records; the snapshot is there while a record is being shifted out. -/
  | reading (t : Transfer) (snapshot : Option (List Byte))
  /-- A WRITE waits for its next record. -/
  | writing (t : Transfer)
  /-- The command has ended; further bytes are ignored. -/
  | tail
  deriving DecidableEq, Repr

/-- One Seat Port. -/
structure SeatPort where
  silent : Bool
  /-- Seat timeout T, in seconds. -/
  timeout : Nat
  /-- The silence deadline, a stamp. -/
  deadline : Option Nat
  /-- The uptime of the last complete frame, a stamp. -/
  lastComplete : Option Nat
  code : ResultCode
  value : Nat
  condition : Condition
  phase : FramePhase
  /-- The bytes that the port shifts out from its last event on: the preamble, the turnaround byte of a
  READ, or a record. Filler follows them (R142, R143, R176). -/
  out : List Byte
  deriving DecidableEq, Repr

/-- The causes of a reset (R154). -/
inductive ResetCause where
  | powerOn
  | resetLine
  | restart
  deriving DecidableEq, Repr

/-- The causes of METER_STATE (R24). -/
inductive MeterCause where
  | bound
  | unbound
  | readings
  | timeout
  | sensor
  | range
  | recovered
  deriving DecidableEq, Repr

/-- The reasons of CHANNEL_FAULT (section 10.2). -/
inductive FaultReason where
  | lost
  | boostUnconfirmed
  | lamp
  | supply
  deriving DecidableEq, Repr

/-- The reasons of CHANNEL_OK (section 10.2). -/
inductive OkReason where
  | reply
  | boostConfirmed
  | lamp
  | supply
  deriving DecidableEq, Repr

/-- The causes of HAND_RELEASED (R102). -/
inductive ReleaseCause where
  | released
  | silence
  | adoption
  deriving DecidableEq, Repr

/-- The events of the catalogue in section 10.2, with what each carries. -/
inductive Event where
  | restarted (cause : ResetCause)
  | storeInvalid
  /-- OVERFLOW, with the kind code of the event it displaced. -/
  | overflow (displaced : Nat)
  | meterFlags (meter : Fin 8) (window heater : Bool)
  | meterState (portal : Fin 4) (meter : Fin 8) (cause : MeterCause) (left new : MeterState)
  | sourceChanged (portal : Fin 4) (status : SourceStatus)
  | mismatch (portal : Fin 4) (meter0 : Fin 8) (estimate0 : Nat) (meter1 : Fin 8) (estimate1 : Nat)
  | stageChanged (portal : Fin 4) (previous new automatic : Nat)
  | channelFault (portal : Fin 4) (channel : Fin 32) (reason : FaultReason)
  | channelOk (portal : Fin 4) (channel : Fin 32) (reason : OkReason)
  | lineState (line : Fin 4) (down : Bool)
  | fireInput (portal : Fin 4) (active : Bool)
  | tripped (portal : Fin 4) (source : TripSource) (sources : TripSet)
  | tripCleared (portal : Fin 4)
  | seatSilent (seat : Seat)
  | seatResumed (seat : Seat)
  | adopted (portal : Fin 4) (seat : Seat)
  | claimExpired (portal : Fin 4) (number : Nat) (kind : ClaimKind)
  | claimRemoved (portal : Fin 4) (number : Nat) (kind : ClaimKind) (silence : Bool)
  | handReleased (portal : Fin 4) (channel : Fin 32) (cause : ReleaseCause)
  | grantLost (portal : Fin 4) (silence : Bool)
  | storeDone
  | storeFailed
  deriving DecidableEq, Repr

/-- A record of an event queue (R170); `time` is the stamp of its posting. -/
structure EventRecord where
  event : Event
  seq : Nat
  time : Nat
  deriving DecidableEq, Repr

/-- One event queue of the Event Unit (section 10.1), with its attention line. -/
structure EventQueue where
  /-- The records, oldest first. -/
  records : List EventRecord
  /-- The number that the next event takes. -/
  seq : Nat
  overflowed : Bool
  /-- The event mask: bit n for the kind of code n + 3. -/
  mask : BitVec 16
  attention : Bool
  deriving DecidableEq, Repr

/-! ### The whole part -/

/-- The state of the part. -/
structure State where
  /-- The time base, in milliseconds since the last reset. -/
  now : Nat
  /-- The moment of the next ramp interval (R100). -/
  nextRamp : Nat
  resetCause : ResetCause
  /-- The model's own: the next free value to draw (logs 11 and 12). -/
  freeIndex : Nat
  /-- Electrical level of the fire inputs: true for high (R111). -/
  firePins : Vector Bool 4
  meters : Vector Meter 8
  active : Vector PortalSet 4
  edits : Vector Edit 4
  base : Vector BaseState 4
  evals : Vector Evaluator 4
  selectors : Vector Selector 4
  arbiters : Vector Arbiter 4
  claimCounter : Nat
  /-- The Zone Sequencers of each portal; `none` for an absent zone (R5). -/
  zones : Vector (Vector (Option Zone) 5) 4
  channels : Vector Channel 32
  lines : Vector LampLine 4
  trips : Vector TripUnit 4
  /-- The stored image: the four sets it holds, or `none` while it is invalid (R167). -/
  image : Option (Vector PortalSet 4)
  /-- The store state: `none` for IDLE (R167). -/
  storing : Option StoreWrite
  ports : Vector SeatPort 3
  queues : Vector EventQueue 3
  /-- The model's own: the commands that are waiting, first in first out. -/
  pending : List Instr
  deriving DecidableEq, Repr

/-- Why a step can stop the part: nothing in the spec does, so there is no such reason. -/
inductive Fault where
  deriving DecidableEq, Repr

/-- Why a command is not run. -/
inductive Refusal where
  /-- Raised by a dispatch arm of a command that has no meaning yet: safe, since nothing is claimed
  about it. No arm raises it. -/
  | notModelled (mnemonic : String)
  deriving DecidableEq, Repr

/-! ### Reset values -/

/-- A meter that no active record binds (R37). -/
def Meter.unused : Meter :=
  { state := .unused, ring := [], estimate := none, badCount := 0, lastSeq := none,
    window := false, heater := false, staleDeadline := none }

/-- A Portal Evaluator after any reset (R38). -/
def Evaluator.reset : Evaluator :=
  { source := .none, status := .none, luminance := 0, held := 0, demand := 0,
    holdSince := none, mismatchSince := none, mismatchReported := false }

/-- A lamp line with no channel on it (R141). -/
def LampLine.empty : LampLine :=
  { updates := [], tx := none, cursor := 15, down := false,
    stations := Vector.replicate 16 none, departed := [] }

/-- A Trip Unit after power-on with its input INACTIVE (R124). -/
def TripUnit.reset : TripUnit :=
  { fireLevel := false, debounced := false, debounce := none, fireLatch := none,
    orderLatch := none, lineDown := false,
    sources := { fire := false, line := false, order := false },
    overlay := false, overlayAt := none }

/-- No grant, no shadow, no pending set (R168). -/
def Edit.none : Edit := { holder := .none, shadow := .none, pendingSet := .none }

/-- A seat port after any reset (R157). -/
def SeatPort.reset : SeatPort :=
  { silent := false, timeout := 10, deadline := some 100, lastComplete := none,
    code := .none, value := 0,
    condition := { a := false, c := false, l := false, p := false },
    phase := .idle, out := [] }

/-- The event mask with every kind on (R175). -/
def EventQueue.allKinds : BitVec 16 := 0x3FFF#16

/-- An event queue just after any reset: RESTARTED with number 0 (R175). -/
def EventQueue.reset (cause : ResetCause) : EventQueue :=
  { records := [{ event := .restarted cause, seq := 0, time := 0 }], seq := 1,
    overflowed := false, mask := EventQueue.allKinds, attention := true }

/-- The machine right after reset: power-on with an invalid stored image (R4, R14, R168; the invalid
image is a DESIGN CHOICE, log 4, and the low fire inputs too, log 5). -/
def State.reset : State :=
  { now := 0, nextRamp := 100, resetCause := .powerOn, freeIndex := 0,
    firePins := Vector.replicate 4 false,
    meters := Vector.replicate 8 Meter.unused,
    active := Vector.replicate 4 PortalSet.default,
    edits := Vector.replicate 4 Edit.none,
    base := Vector.replicate 4 .unconfigured,
    evals := Vector.replicate 4 Evaluator.reset,
    selectors := Vector.replicate 4
      { following := false, automatic := 0, dwell := some 0, enteredAt := 0, demandInUse := none },
    arbiters := Vector.replicate 4 { claims := [], effective := 0, automatic := 0, top := 0 },
    claimCounter := 1,
    zones := Vector.replicate 4 (Vector.replicate 5 none),
    channels := Vector.replicate 32 Channel.unassigned,
    lines := Vector.replicate 4 LampLine.empty,
    trips := Vector.replicate 4 TripUnit.reset,
    image := none, storing := none,
    ports := Vector.replicate 3 SeatPort.reset,
    queues := Vector.replicate 3
      { records :=
          [{ event := .restarted .powerOn, seq := 0, time := 0 },
           { event := .storeInvalid, seq := 1, time := 0 }],
        seq := 2, overflowed := false, mask := EventQueue.allKinds, attention := true },
    pending := [] }

end Sys2Proof.Machine
end

