-- ==== Sys2Proof/Machine/Ops.lean ====
section
/-! DEFINITION. The named operations over the state that every chapter uses: reads and writes of one
block, the clock, lookups in the active sets, and repetition over portals, zones and channels. -/

namespace Sys2Proof.Machine

/-! ### Durations (in milliseconds) and fixed bounds -/

/-- The ramp interval of 0.1 s (R100). -/
def rampIntervalMs : Nat := 100

/-- The confirm timer of 2.0 s (R86). -/
def confirmMs : Nat := 2000

/-- The debounce time of 0.2 s (R112). -/
def debounceMs : Nat := 200

/-- The mismatch timer of 30.0 s (R33). -/
def mismatchMs : Nat := 30000

/-- The reply window of 10 ms (R128). -/
def replyWindowMs : Nat := 10

/-- The time within which the part sends each of its lamp line frames (R126). -/
def frameSendMs : Nat := 10

/-- The time within which a store write ends (R167). -/
def storeWriteMs : Nat := 2000

/-! ### Indexes -/

/-- The seat's place in the banks of seat ports and queues (coded as R176 codes seats). -/
def seatIx : Seat → Fin 3
  | .A => 0
  | .B => 1
  | .L => 2

/-- The three seats. -/
def allSeats : List Seat := [.A, .B, .L]

/-- The four portals, which are also the four lamp lines (R1). -/
def allPortals : List (Fin 4) := [0, 1, 2, 3]

/-- The five zones of a portal, in the order of the road. -/
def allZones : List (Fin 5) := [0, 1, 2, 3, 4]

/-- The eight meters. -/
def allMeters : List (Fin 8) := [0, 1, 2, 3, 4, 5, 6, 7]

/-- The sixteen driver addresses. -/
def allAddrs : List (Fin 16) := [0, 1, 2, 3, 4, 5, 6, 7, 8, 9, 10, 11, 12, 13, 14, 15]

/-- The thirty-two channels. -/
def allChannels : List (Fin 32) :=
  [0, 1, 2, 3, 4, 5, 6, 7, 8, 9, 10, 11, 12, 13, 14, 15,
   16, 17, 18, 19, 20, 21, 22, 23, 24, 25, 26, 27, 28, 29, 30, 31]

/-- Applies an operation for each of a list of things, in the list's order. -/
def forEach {α : Type} (l : List α) (f : α → State → State) (s : State) : State :=
  match l with
  | [] => s
  | a :: rest => forEach rest f (f a s)

/-! ### Reads and writes of one block -/

namespace State

/-- Meter `m`. -/
abbrev meter (s : State) (m : Fin 8) : Meter := rd s.meters m

/-- The active set of portal `p`. -/
abbrev set (s : State) (p : Fin 4) : PortalSet := rd s.active p

/-- The active portal record of portal `p`, the only record the blocks read (R9). -/
abbrev record (s : State) (p : Fin 4) : PortalRecord := (rd s.active p).record

/-- The edit state of portal `p`. -/
abbrev edit (s : State) (p : Fin 4) : Edit := rd s.edits p

/-- The base state of portal `p`. -/
abbrev baseOf (s : State) (p : Fin 4) : BaseState := rd s.base p

/-- The Portal Evaluator of portal `p`. -/
abbrev eval (s : State) (p : Fin 4) : Evaluator := rd s.evals p

/-- The Stage Selector of portal `p`. -/
abbrev selector (s : State) (p : Fin 4) : Selector := rd s.selectors p

/-- The Claim Arbiter of portal `p`. -/
abbrev arbiter (s : State) (p : Fin 4) : Arbiter := rd s.arbiters p

/-- The Zone Sequencer of zone `z` of portal `p`; `none` if the zone is absent. -/
abbrev zone (s : State) (p : Fin 4) (z : Fin 5) : Option Zone := rd (rd s.zones p) z

/-- Channel Output `c`. -/
abbrev channel (s : State) (c : Fin 32) : Channel := rd s.channels c

/-- The Lamp Line Controller of line `n`. -/
abbrev lampLine (s : State) (n : Fin 4) : LampLine := rd s.lines n

/-- The Trip Unit of portal `p`. -/
abbrev tripUnit (s : State) (p : Fin 4) : TripUnit := rd s.trips p

/-- The seat port of a seat. -/
abbrev port (s : State) (seat : Seat) : SeatPort := rd s.ports (seatIx seat)

/-- The event queue of a seat. -/
abbrev queue (s : State) (seat : Seat) : EventQueue := rd s.queues (seatIx seat)

/-- Replaces meter `m`. -/
def setMeter (s : State) (m : Fin 8) (x : Meter) : State := { s with meters := wr s.meters m x }

/-- Replaces the active set of portal `p`. -/
def setActive (s : State) (p : Fin 4) (x : PortalSet) : State := { s with active := wr s.active p x }

/-- Replaces the edit state of portal `p`. -/
def setEdit (s : State) (p : Fin 4) (x : Edit) : State := { s with edits := wr s.edits p x }

/-- Replaces the base state of portal `p`. -/
def setBase (s : State) (p : Fin 4) (x : BaseState) : State := { s with base := wr s.base p x }

/-- Replaces the Portal Evaluator of portal `p`. -/
def setEval (s : State) (p : Fin 4) (x : Evaluator) : State := { s with evals := wr s.evals p x }

/-- Replaces the Stage Selector of portal `p`. -/
def setSelector (s : State) (p : Fin 4) (x : Selector) : State :=
  { s with selectors := wr s.selectors p x }

/-- Replaces the Claim Arbiter of portal `p`. -/
def setArbiter (s : State) (p : Fin 4) (x : Arbiter) : State :=
  { s with arbiters := wr s.arbiters p x }

/-- Replaces the Zone Sequencer of zone `z` of portal `p`. -/
def setZone (s : State) (p : Fin 4) (z : Fin 5) (x : Option Zone) : State :=
  { s with zones := wr s.zones p (wr (rd s.zones p) z x) }

/-- Replaces Channel Output `c`. -/
def setChannel (s : State) (c : Fin 32) (x : Channel) : State :=
  { s with channels := wr s.channels c x }

/-- Replaces the Lamp Line Controller of line `n`. -/
def setLine (s : State) (n : Fin 4) (x : LampLine) : State := { s with lines := wr s.lines n x }

/-- Replaces the Trip Unit of portal `p`. -/
def setTrip (s : State) (p : Fin 4) (x : TripUnit) : State := { s with trips := wr s.trips p x }

/-- Replaces the seat port of a seat. -/
def setPort (s : State) (seat : Seat) (x : SeatPort) : State :=
  { s with ports := wr s.ports (seatIx seat) x }

/-- Replaces the event queue of a seat. -/
def setQueue (s : State) (seat : Seat) (x : EventQueue) : State :=
  { s with queues := wr s.queues (seatIx seat) x }

/-! ### The clock -/

/-- The present stamp: tenths of a second since the last reset, without the wrap of a reading. -/
def tenths (s : State) : Nat := s.now / 100

/-- The uptime as a seat reads it: modulo 4,294,967,296 tenths. -/
def uptime (s : State) : Nat := s.tenths % 4294967296

/-- Whether a running timer has reached the moment of its expiry. -/
def due (s : State) (timer : Option Nat) : Bool :=
  match timer with
  | none => false
  | some t => decide (t ≤ s.now)

/-- Whether the uptime has reached a deadline that is a stamp. -/
def passed (s : State) (deadline : Option Nat) : Bool :=
  match deadline with
  | none => false
  | some t => decide (t ≤ s.tenths)

end State

/-! ### Lookups in the active sets -/

/-- The top stage of a set: the stage count less one (R40). -/
def PortalSet.top (x : PortalSet) : Nat := x.stageCount - 1

/-- The row slot `n`; past the twelve slots, the empty row. -/
def PortalSet.row (x : PortalSet) (n : Nat) : StageRow :=
  if h : n < 12 then rd x.rows ⟨n, h⟩ else StageRow.empty

/-- The set with every row slot at or above the stage count empty (R40). -/
def PortalSet.trimmed (x : PortalSet) : PortalSet :=
  { x with rows := tab fun i => if i.val < x.stageCount then rd x.rows i else StageRow.empty }

/-- Whether a record binds a meter. -/
def PortalRecord.binds (r : PortalRecord) (m : Fin 8) : Bool := r.slot0 == some m || r.slot1 == some m

/-- A channel record with the portal and the driver address that hold it. -/
structure Circuit where
  portal : Fin 4
  addr : Fin 16
  cfg : ChannelRecord
  deriving DecidableEq, Repr

/-- The circuit at one address of a set, if its slot holds a record. -/
def PortalSet.circuit (x : PortalSet) (p : Fin 4) (a : Fin 16) : Option Circuit :=
  (rd x.slots a).map fun r => { portal := p, addr := a, cfg := r }

/-- The circuits of a set, in ascending order of driver address. -/
def PortalSet.circuits (x : PortalSet) (p : Fin 4) : List Circuit :=
  allAddrs.filterMap fun a => x.circuit p a

/-- The circuit of a set that names channel `c`. -/
def PortalSet.find (x : PortalSet) (p : Fin 4) (c : Fin 32) : Option Circuit :=
  (x.circuits p).find? fun k => k.cfg.channel == c

/-- The circuits of portal `p`'s active set. -/
def State.circuits (s : State) (p : Fin 4) : List Circuit := (s.set p).circuits p

/-- The assignment of a channel: the circuit of the active set that holds it, if any (R14). -/
def State.assignment (s : State) (c : Fin 32) : Option Circuit :=
  allPortals.findSome? fun p => (s.set p).find p c

/-- The DIMMED circuits of a zone. -/
def State.dimmed (s : State) (p : Fin 4) (z : Fin 5) : List Circuit :=
  (s.circuits p).filter fun k => k.cfg.zone == some z && !k.cfg.switched

/-- The switched circuit of a zone, if it has one (R12). -/
def PortalSet.switchedOf (x : PortalSet) (p : Fin 4) (z : Fin 5) : Option Circuit :=
  (x.circuits p).find? fun k => k.cfg.zone == some z && k.cfg.switched

/-- The portal whose active record binds a meter, if any. -/
def State.meterPortal (s : State) (m : Fin 8) : Option (Fin 4) :=
  allPortals.find? fun p => (s.record p).binds m

/-- Whether portal `p` carries the TRIPPED overlay. -/
def State.tripped (s : State) (p : Fin 4) : Bool := (s.tripUnit p).overlay

end Sys2Proof.Machine
end

