-- ==== Sys2Proof/Machine/Events.lean ====
section
/-! DEFINITION. The Event Unit (chapter 10): kinds, masks, placing with overflow, popping, and the
attention line. Every event of every block is posted through the three operations at the end. -/

namespace Sys2Proof.Machine

/-- The kind code of an event (R177). -/
def Event.kind : Event → Nat
  | .restarted _ => 0
  | .storeInvalid => 1
  | .overflow _ => 2
  | .meterFlags _ _ _ => 3
  | .meterState _ _ _ _ _ => 4
  | .sourceChanged _ _ => 5
  | .mismatch _ _ _ _ _ => 6
  | .stageChanged _ _ _ _ => 7
  | .channelFault _ _ _ => 8
  | .channelOk _ _ _ => 9
  | .lineState _ _ => 10
  | .fireInput _ _ => 11
  | .tripped _ _ _ => 12
  | .tripCleared _ => 13
  | .seatSilent _ => 14
  | .seatResumed _ => 15
  | .adopted _ _ => 16
  | .claimExpired _ _ _ => 17
  | .claimRemoved _ _ _ _ => 18
  | .handReleased _ _ _ => 19
  | .grantLost _ _ => 20
  | .storeDone => 21
  | .storeFailed => 22

/-- The maskable kinds are those of codes 3 to 16 (R177). -/
def Event.maskable (e : Event) : Bool := decide (3 ≤ e.kind ∧ e.kind ≤ 16)

/-- Whether a mask keeps an event out of a queue (R171). -/
def Event.keptOut (e : Event) (mask : BitVec 16) : Bool :=
  e.maskable && !mask.getLsbD (e.kind - 3)

namespace EventQueue

/-- The number after a sequence number, from 65,535 to 0 (R170). -/
def nextSeq (n : Nat) : Nat := (n + 1) % 65536

/-- Adds a record at the tail and asserts the attention line if the queue was empty (R169, R174). -/
def append (q : EventQueue) (r : EventRecord) : EventQueue :=
  { q with records := q.records ++ [r], attention := q.attention || q.records.isEmpty }

/-- What an event for a seat does to its queue (R170 to R172). -/
def place (q : EventQueue) (e : Event) (time : Nat) : EventQueue :=
  if e.keptOut q.mask then q
  else if q.overflowed then { q with seq := nextSeq q.seq }
  else if q.records.length < 31 then
    { q.append { event := e, seq := q.seq, time := time } with seq := nextSeq q.seq }
  else
    { q.append { event := .overflow e.kind, seq := q.seq, time := time } with
      seq := nextSeq q.seq, overflowed := true }

/-- Whether the head record is an OVERFLOW record. -/
def headIsOverflow (q : EventQueue) : Bool :=
  match q.records with
  | { event := .overflow _, seq := _, time := _ } :: _ => true
  | _ => false

/-- The pop of the head record at its delivery (R172 to R174). -/
def pop (q : EventQueue) : EventQueue :=
  { q with
    records := q.records.tail
    overflowed := q.overflowed && !q.headIsOverflow
    attention := q.attention && !q.records.tail.isEmpty }

end EventQueue

/-- Posts an event for one seat (R169, R171). -/
def postTo (seat : Seat) (e : Event) (s : State) : State :=
  s.setQueue seat ((s.queue seat).place e s.uptime)

/-- Posts a broadcast event for every seat (R171). -/
def postAll (e : Event) (s : State) : State :=
  postTo .L e (postTo .B e (postTo .A e s))

/-- Posts SEAT_SILENT or SEAT_RESUMED for the two seats other than the one named (R171). -/
def postOthers (seat : Seat) (e : Event) (s : State) : State :=
  match seat with
  | .A => postTo .L e (postTo .B e s)
  | .B => postTo .L e (postTo .A e s)
  | .L => postTo .B e (postTo .A e s)

end Sys2Proof.Machine
end

