-- ==== Sys2Proof/Machine/Operands.lean ====
section
/-! DEFINITION. Operand forms: header fields, the records that commands carry in, and the frames of
meter and lamp lines, decoded and checked for range (chapter 11; R8, R11, R39, R40). -/

namespace Sys2Proof.Machine

/-! ### Bytes (R176: most significant byte first) -/

/-- Byte `i` of a record; past its end, 0. -/
def byteAt (bytes : List Byte) (i : Nat) : Nat := (bytes.getD i 0#8).toNat

/-- Bit `b` of byte `i` of a record. -/
def bitAt (bytes : List Byte) (i b : Nat) : Bool := (bytes.getD i 0#8).getLsbD b

/-- The two-byte field at `i`. -/
def wordAt (bytes : List Byte) (i : Nat) : Nat := byteAt bytes i * 256 + byteAt bytes (i + 1)

/-- The three-byte field at `i`. -/
def tripleAt (bytes : List Byte) (i : Nat) : Nat := byteAt bytes i * 65536 + wordAt bytes (i + 1)

/-- One byte holding a number. -/
def byte (n : Nat) : Byte := BitVec.ofNat 8 n

/-- A two-byte field. -/
def word (n : Nat) : List Byte := [byte (n / 256), byte n]

/-- A four-byte field. -/
def long (n : Nat) : List Byte :=
  [byte (n / 16777216), byte (n / 65536), byte (n / 256), byte n]

/-- The check sum rule of R176: all bytes of a frame add up to 0 modulo 256. -/
def sumsToZero (bytes : List Byte) : Bool := bytes.foldl (· + ·) 0#8 == 0#8

/-- The check sum byte of a frame that the part sends: it makes the frame add up to 0 (R176). -/
def checkSum (bytes : List Byte) : Byte := -bytes.foldl (· + ·) 0#8

/-- A frame with its check sum as its last byte. -/
def withCheckSum (bytes : List Byte) : List Byte := bytes ++ [checkSum bytes]

/-- The filler byte (R176). -/
def filler : Byte := 0#8

/-- Byte `n` of what a seat port shifts out from its last event on. -/
def SeatPort.shiftedOut (x : SeatPort) (n : Nat) : Byte := x.out.getD n filler

/-- One bit of a flag byte, as a number. -/
def flag (b : Bool) (place : Nat) : Nat := if b then 2 ^ place else 0

end Sys2Proof.Machine

namespace Sys2Proof

/-! ### Header fields (R177) -/

/-- Whether the portal mask names portal `p`; bits 4 to 7 are reserved. -/
def Header.names (h : Header) (p : Fin 4) : Bool := h.target.getLsbD p.val

/-- The portals that the portal mask names, in ascending order. -/
def Header.portals (h : Header) : List (Fin 4) := Machine.allPortals.filter fun p => h.names p

/-- The object class. -/
def Header.cls (h : Header) : Nat := h.target.toNat % 32

/-- The meter or portal that bits 5 to 7 name for the list classes. -/
def Header.owner (h : Header) : Nat := h.target.toNat / 32

/-- The starting index. -/
def Header.index (h : Header) : Nat := h.place.toNat % 64

/-- The stepping; code 3 is unused (R146). -/
def Header.stepping (h : Header) : Option Machine.Stepping :=
  match h.place.toNat / 64 with
  | 0 => some .ascend
  | 1 => some .descend
  | 2 => some .hold
  | _ => none

/-- The count. -/
def Header.records (h : Header) : Nat := h.count.toNat

end Sys2Proof

namespace Sys2Proof.Machine

/-- A portal mask as a result value: bit n names Pn. -/
def maskOf (l : List (Fin 4)) : Nat :=
  allPortals.foldl (fun acc p => acc + if l.contains p then 2 ^ p.val else 0) 0

/-- The index after a record, by the stepping; DESCEND below 0 is outside every range (R146). -/
def Stepping.next (t : Stepping) (index : Nat) : Option Nat :=
  match t with
  | .ascend => some (index + 1)
  | .descend => if index = 0 then none else some (index - 1)
  | .hold => some index

/-! ### Object classes (R154, R158, R177) -/

/-- The classes whose object number names a portal and must be 0 to 3. -/
def portalListClass (cls : Nat) : Bool := [8, 9, 18, 19, 22, 23].contains cls

/-- Whether a class code, with the number of the portal it names, is an object class. -/
def classExists (cls owner : Nat) : Bool :=
  decide (cls ≤ 23) && !(portalListClass cls && decide (3 < owner))

/-- The writable classes are codes 16 to 19. -/
def classWritable (cls : Nat) : Bool := decide (16 ≤ cls ∧ cls ≤ 19)

/-- The length of the records of a writable class (R178). -/
def shadowRecordBytes (cls : Nat) : Nat :=
  match cls with
  | 16 => 24
  | 17 => 2
  | 18 => 16
  | _ => 8

/-- The portal that a number 0 to 3 names. -/
def portalOf (n : Nat) : Fin 4 := ⟨n % 4, Nat.mod_lt n (by decide)⟩

/-- The number of records in the index range of a writable class (R158). -/
def shadowRange (cls : Nat) : Nat :=
  match cls with
  | 18 => 12
  | 19 => 16
  | _ => 4

/-! ### Records carried in (R178) and their ranges -/

/-- The kind byte of a claim request (R176). -/
def claimKindOf (n : Nat) : Option ClaimKind :=
  match n with
  | 0 => some .force
  | 1 => some .floor
  | 2 => some .cap
  | 3 => some .freeze
  | 4 => some .inject
  | _ => none

/-- A claim request with a known kind; a deadline of 0 is absent (R69). -/
structure ClaimRequest where
  kind : ClaimKind
  kept : Bool
  argument : Nat
  deadline : Option Nat
  deriving DecidableEq, Repr

/-- The claim request record; `none` for a kind byte of 5 to 255. -/
def claimRequest (bytes : List Byte) : Option ClaimRequest :=
  (claimKindOf (byteAt bytes 0)).map fun k =>
    { kind := k, kept := bitAt bytes 1 0, argument := wordAt bytes 2,
      deadline := if tripleAt bytes 4 = 0 then none else some (tripleAt bytes 4) }

/-- The checks 4 to 6 of R69 on a claim request: the result value of the first that fails. -/
def ClaimRequest.refusal (q : ClaimRequest) : Option Nat :=
  let badArgument : Bool :=
    match q.kind with
    | .force | .floor | .cap => decide (11 < q.argument)
    | .inject => decide (20000 < q.argument)
    | .freeze => false
  let badDeadline : Bool :=
    match q.deadline with
    | none => q.kind == .inject
    | some d => decide (86400 < d) || (q.kind == .inject && decide (3600 < d))
  if badArgument then some 2
  else if q.kind == .inject && q.kept then some 3
  else if badDeadline then some 4
  else none

/-- A meter binding slot byte: 255 none, 0 to 7 a meter. -/
def slotOf (n : Nat) : Option (Option (Fin 8)) :=
  if n = 255 then some none
  else if h : n < 8 then some (some ⟨n, h⟩)
  else none

/-- A ramp rate is 10 to 1000 in multiples of 10 (R8). -/
def rateOk (n : Nat) : Bool := decide (10 ≤ n ∧ n ≤ 1000 ∧ n % 10 = 0)

/-- The portal record; `none` if a field lies outside its range (R8, R178). Bits 4 to 7 of byte 0 and
5 to 7 of byte 1, which R178 does not name, are ignored: a DESIGN CHOICE (log 49). -/
def portalRecordOf (b : List Byte) : Option PortalRecord :=
  match slotOf (byteAt b 2), slotOf (byteAt b 3) with
  | some s0, some s1 =>
    let r : PortalRecord :=
      { enabled := bitAt b 0 0, activeLow := bitAt b 0 1, fireArmed := bitAt b 0 2,
        lineArmed := bitAt b 0 3, zones := tab fun z : Fin 5 => bitAt b 1 z.val,
        slot0 := s0, slot1 := s1, k := byteAt b 4, window := byteAt b 5, tStale := byteAt b 6,
        overlap := byteAt b 7, tHold := wordAt b 8, upRate := wordAt b 10,
        downRate := wordAt b 12, boost := tab fun z : Fin 5 => wordAt b (14 + 2 * z.val) }
    if 20 ≤ r.k ∧ r.k ≤ 150 ∧ 4 ≤ r.window ∧ r.window ≤ 16 ∧ 2 ≤ r.tStale ∧ r.tStale ≤ 30 ∧
        r.tHold ≤ 600 ∧ 2 ≤ r.overlap ∧ r.overlap ≤ 50 ∧ rateOk r.upRate ∧ rateOk r.downRate ∧
        allZones.all fun z => decide (rd r.boost z ≤ 500) then some r
    else none
  | _, _ => none

/-- A threshold field: 65,535 absent, else 0 to 30,000. -/
def thresholdOf (n : Nat) : Option (Option Nat) :=
  if n = 65535 then some none else if n ≤ 30000 then some (some n) else none

/-- The stage row; `none` if a field lies outside its range (R39, R178). -/
def stageRowOf (b : List Byte) : Option StageRow :=
  match thresholdOf (wordAt b 0), thresholdOf (wordAt b 2) with
  | some rise, some fall =>
    let r : StageRow :=
      { rise := rise, fall := fall, dwell := wordAt b 4,
        levels := tab fun z : Fin 5 => wordAt b (6 + 2 * z.val) }
    if r.dwell ≤ 900 ∧ allZones.all fun z => decide (rd r.levels z ≤ 1000) then some r else none
  | _, _ => none

/-- The stage count of a table header record; `none` outside 1 to 12 (R40). -/
def stageCountOf (b : List Byte) : Option Nat :=
  if 1 ≤ byteAt b 0 ∧ byteAt b 0 ≤ 12 then some (byteAt b 0) else none

/-- A zone byte: 0 to 4 a zone, 7 NONE (R176). -/
def zoneOf (n : Nat) : Option (Option (Fin 5)) :=
  if n = 7 then some none else if h : n < 5 then some (some ⟨n, h⟩) else none

/-- The channel slot record: `some none` empties the slot, and `none` is a field outside its range,
which for the two levels depends on the type (R11, R178). Bits 2 to 7 of byte 0, which R178 does not
name, are ignored: a DESIGN CHOICE (log 49). -/
def channelSlotOf (b : List Byte) : Option (Option ChannelRecord) :=
  if !bitAt b 0 0 then some none
  else
    match zoneOf (byteAt b 2) with
    | none => none
    | some z =>
      if h : byteAt b 1 < 32 then
        let r : ChannelRecord :=
          { channel := ⟨byteAt b 1, h⟩, zone := z, switched := bitAt b 0 1,
            failLevel := wordAt b 4, minLevel := wordAt b 6 }
        let ok :=
          if r.switched then (r.failLevel = 0 ∨ r.failLevel = 1000) ∧ r.minLevel = 0
          else r.failLevel ≤ 1000 ∧ r.minLevel ≤ 300
        if ok then some (some r) else none
      else none

/-! ### Frames of meter and lamp lines (R180) -/

end Sys2Proof.Machine

namespace Sys2Proof

/-- The bytes of the frame that received bytes are: they begin one after at least 1 ms of silence, or,
with `first`, as the first after the part's own frame. Bytes that begin no frame are ignored (log 27).
A frame that the silence ended before its last byte, or that went on past it, is damaged by its number
of bytes. -/
def Burst.frame (b : Burst) (first : Bool) : Option (List Byte) :=
  if b.bytes ≠ [] ∧ (first || b.silence) then some b.bytes else none

end Sys2Proof

namespace Sys2Proof.Machine

/-- The LEVEL frame (R127, R180). -/
def levelFrame (a : Fin 16) (level : Nat) : List Byte := withCheckSum (byte (16 + a.val) :: word level)

/-- The POLL frame (R127, R180). -/
def pollFrame (a : Fin 16) : List Byte := withCheckSum [byte (32 + a.val)]

/-- The contents of an undamaged reading frame. -/
structure ReadingFrame where
  seq : Nat
  luminance : Nat
  window : Bool
  heater : Bool
  sensor : Bool
  deriving DecidableEq, Repr

/-- A reading frame from its bytes; `none` if it is damaged: fewer than five bytes, a further byte, or a
check sum that does not hold. -/
def readingFrameOf (b : List Byte) : Option ReadingFrame :=
  if b.length = 5 ∧ sumsToZero b then
    some { seq := byteAt b 0, luminance := wordAt b 1, window := bitAt b 3 0,
           heater := bitAt b 3 1, sensor := bitAt b 3 2 }
  else none

/-- The contents of an undamaged STATUS frame. -/
structure StatusFrame where
  addr : Fin 16
  level : Nat
  lamp : Bool
  supply : Bool
  closed : Bool
  deriving DecidableEq, Repr

/-- A STATUS frame from its bytes; `none` if it is damaged: a type other than 3, a length other than
five, a level above 1000, a bad check sum. -/
def statusFrameOf (b : List Byte) : Option StatusFrame :=
  if b.length = 5 ∧ byteAt b 0 / 16 = 3 ∧ wordAt b 1 ≤ 1000 ∧ sumsToZero b then
    some { addr := ⟨byteAt b 0 % 16, Nat.mod_lt _ (by decide)⟩, level := wordAt b 1,
           lamp := bitAt b 3 0, supply := bitAt b 3 1, closed := bitAt b 3 2 }
  else none

end Sys2Proof.Machine
end

