-- ==== Sys2Proof/Machine/Flags.lean ====
section
/-! DEFINITION. Outcomes: result codes, the condition word rules of every command, and the writing of
a seat's outcome when a command ends (R145, R149, R150). -/

namespace Sys2Proof.Machine

/-- The byte code of a result code (R177). -/
def ResultCode.code : ResultCode → Nat
  | .none => 0
  | .ok => 1
  | .short => 2
  | .badCommand => 3
  | .badObject => 4
  | .badIndex => 5
  | .badValue => 6
  | .seatDenied => 7
  | .notHolder => 8
  | .held => 9
  | .quota => 10
  | .noClaim => 11
  | .notOwner => 12
  | .locked => 13
  | .pendingBusy => 14
  | .invalid => 15
  | .storeBusy => 16
  | .active => 17
  | .notTripped => 18

/-- The condition word byte of the preamble (R177). -/
def Condition.byte (w : Condition) : Byte :=
  Machine.byte (flag w.a 0 + flag w.c 1 + flag w.l 2 + flag w.p 3)

/-- The condition word of a command that ends with OK, where its table sets or clears C and P, and
sets or leaves L. -/
def Condition.accepted (old : Condition) (changed raised deferred : Bool) : Condition :=
  { a := true, c := changed, l := old.l || raised, p := deferred }

/-- The condition word of a refusal by a command whose table clears C and P (every command but READ and
COMMIT, R149, R164). -/
def Condition.refused (old : Condition) : Condition := { a := false, c := false, l := old.l, p := false }

/-- The condition word of SHORT, BAD_COMMAND and a READ that does not end with OK: A is cleared and
C, L and P are unchanged (R149, R154). -/
def Condition.clearedA (old : Condition) : Condition := { old with a := false }

/-- The condition word of a READ that ends with OK (R154). -/
def Condition.setA (old : Condition) : Condition := { old with a := true }

/-- The condition word of CLEAR_CONDITION (R155). -/
def Condition.clearL (old : Condition) : Condition := { old with a := true, l := false }

/-- The end of a seat's command: its outcome is written (R145), the rest of the frame is ignored, and
filler is shifted out (R143, R146). -/
def endCommand (seat : Seat) (code : ResultCode) (value : Nat) (w : Condition) (s : State) : State :=
  s.setPort seat { s.port seat with code := code, value := value, condition := w, phase := .tail, out := [] }

/-- A refusal that clears A and C and leaves L, with the P flag given. -/
def refuseDeferred (seat : Seat) (code : ResultCode) (value : Nat) (p : Bool) (s : State) : State :=
  endCommand seat code value { (s.port seat).condition.refused with p := p } s

/-- A refusal by a command whose table clears A, C and P and leaves L. -/
def refuse (seat : Seat) (code : ResultCode) (value : Nat) (s : State) : State :=
  endCommand seat code value (s.port seat).condition.refused s

/-- An accepted command, with the flags of its table. -/
def accept (seat : Seat) (value : Nat) (changed raised deferred : Bool) (s : State) : State :=
  endCommand seat .ok value ((s.port seat).condition.accepted changed raised deferred) s

/-- A command's event reaches the part only in a frame of its seat whose header was not complete
before (R142, R144): otherwise there is no such event, and nothing changes (log 9). -/
def inHeader (seat : Seat) (s : State) (run : State → State) : State :=
  if (s.port seat).phase = .header then run s else s

/-- A command that carries one record executes when the record is complete (R144, R178). -/
def withRecord (seat : Seat) (length : Nat) (bytes : List Byte) (s : State) (run : State → State) :
    State :=
  if bytes.length = length then inHeader seat s run else s

end Sys2Proof.Machine
end

