-- ==== Sys2Proof/Machine/Lines.lean ====
section
/-! DEFINITION. The Lamp Line Controller's own data (chapter 7): the update set, the choice of the
next transaction, and the channels on the line. What a reply or a miss does to the rest of the part
is in Machine/Replies.lean. -/

namespace Sys2Proof.Machine

namespace LampLine

/-- Whether channel `c` is on the line at address `a`. -/
def carries (l : LampLine) (a : Fin 16) (c : Fin 32) : Bool :=
  (rd l.stations a).any fun t => t.channel == c

/-- Whether the update set holds an entry for an address. -/
def waits (l : LampLine) (a : Fin 16) : Bool := l.updates.any fun e => e.addr == a

/-- A level enters the update set at an address, in place or at the tail (R130). -/
def enter (l : LampLine) (a : Fin 16) (level : Nat) (c : Fin 32) : LampLine :=
  if l.waits a then
    let put (e : Entry) : Entry :=
      if e.addr = a then { e with level := level, owner := some c } else e
    { l with updates := l.updates.map put }
  else
    { l with updates := l.updates ++ [{ addr := a, level := level, owner := some c, departing := none }] }

/-- The farewell of 0 or OFF enters at a channel's old address (R137). -/
def enterFarewell (l : LampLine) (a : Fin 16) (c : Fin 32) : LampLine :=
  if l.waits a then
    let put (e : Entry) : Entry :=
      if e.addr = a then { e with level := 0, owner := none, departing := some c } else e
    { l with updates := l.updates.map put }
  else
    { l with updates := l.updates ++ [{ addr := a, level := 0, owner := none, departing := some c }] }

/-- The leaving side of a channel that leaves or is replaced (R137, R139): it leaves the line, what
the line held for it is kept until its farewell completes, a transaction in progress with it is no
longer its own, and its farewell enters the update set. A channel that is not on the line at the
address it leaves has no miss count there; what is kept for it is 0 and no status, beside what an
earlier farewell of it keeps: a DESIGN CHOICE (log 18). -/
def leave (l : LampLine) (a : Fin 16) (c : Fin 32) (replaced : Bool) : LampLine :=
  let station := (rd l.stations a).filter fun t => t.channel == c
  let kept : Departed :=
    { channel := c, addr := a, misses := (station.map Station.misses).getD 0
      status := station.bind Station.status, replaced := replaced
      later := l.tx.any fun x => x.addr == a && x.departing == some c }
  let onLine := l.carries a c
  let l1 : LampLine :=
    { l with
      stations := if onLine then wr l.stations a none else l.stations
      departed := l.departed ++ [kept]
      tx := l.tx.map fun x =>
        if x.addr = a ∧ x.channel = some c then { x with channel := none } else x }
  l1.enterFarewell a c

/-- A channel takes up its address: OK with miss count 0, or LOST if the condition is DOWN (R137). -/
def station (l : LampLine) (a : Fin 16) (c : Fin 32) (down : Bool) : LampLine :=
  let t : Station := { channel := c, misses := if down then 3 else 0, status := none }
  { l with stations := wr l.stations a (some t) }

/-- The channels on the line. -/
def onLine (l : LampLine) : List Station := allAddrs.filterMap fun a => rd l.stations a

/-- DOWN by R134: at least one channel is on the line and every channel on it is LOST. -/
def allLost (l : LampLine) : Bool := !l.onLine.isEmpty && l.onLine.all fun t => t.misses == 3

/-- The sixteen addresses in the order in which the poll tries them: from the one after the cursor,
wrapping from 15 to 0, to the cursor itself (R129). -/
def pollOrder (l : LampLine) : List (Fin 16) := allAddrs.map fun i => l.cursor + 1 + i

/-- The address of the next poll, if a channel is on the line (R129). -/
def nextPoll (l : LampLine) : Option (Fin 16) := l.pollOrder.find? fun a => (rd l.stations a).isSome

/-- An idle controller with work begins a transaction, whose frame carries a check sum (R126, R127,
R129). -/
def begin (l : LampLine) (now : Nat) : LampLine :=
  match l.tx with
  | some _ => l
  | none =>
    match l.updates with
    | e :: rest =>
      { l with
        updates := rest
        tx := some { level := some e.level, addr := e.addr, channel := e.owner,
                     departing := e.departing, frame := levelFrame e.addr e.level,
                     phase := .sending (now + frameSendMs) } }
    | [] =>
      match l.nextPoll with
      | some a =>
        { l with
          cursor := a
          tx := some { level := none, addr := a, channel := (rd l.stations a).map Station.channel,
                       departing := none, frame := pollFrame a,
                       phase := .sending (now + frameSendMs) } }
      | none => l

end LampLine

/-- At the end of an event, each idle line that the event gave work begins a transaction (R126,
log 16). -/
def beginTransactions (s : State) : State :=
  forEach allPortals (fun n s => s.setLine n ((s.lampLine n).begin s.now)) s

/-- The end of an event that may have given a lamp line work. -/
def done (s : State) : Host.Outcome State Fault Refusal := .next (beginTransactions s)

end Sys2Proof.Machine
end

