-- ==== Sys2Proof/Machine/Output.lean ====
section
/-! DEFINITION. Channel Output (section 5.6): commanding a level, giving a target, the ramp step. -/

namespace Sys2Proof.Machine

/-- A level above 0 and below a DIMMED channel's min level is commanded as the min level (R7). -/
def ChannelRecord.raised (r : ChannelRecord) (level : Nat) : Nat :=
  if !r.switched ∧ 0 < level ∧ level < r.minLevel then r.minLevel else level

/-- A commanded level is handed to the lamp line (R101). A channel that waits for its farewell is not
yet on the line at its address, and enters no level (R130, R137). -/
def handOn (k : Circuit) (level : Nat) (s : State) : State :=
  let l := s.lampLine k.portal
  if l.carries k.addr k.cfg.channel then s.setLine k.portal (l.enter k.addr level k.cfg.channel)
  else s

/-- Commands a channel at a level: each change is handed on at the event that makes it (R99, R101). -/
def command (k : Circuit) (level : Nat) (s : State) : State :=
  let ch := s.channel k.cfg.channel
  let level' := k.cfg.raised level
  if ch.level = some level' then s
  else handOn k level' (s.setChannel k.cfg.channel { ch with level := some level' })

/-- Gives a channel a target, its min level applied (R7, R87). -/
def giveTarget (k : Circuit) (target : Nat) (s : State) : State :=
  s.setChannel k.cfg.channel { s.channel k.cfg.channel with target := some (k.cfg.raised target) }

/-- Gives a channel its own commanded level as its target, its min level applied, so that its ramp stops
(R7, R87). -/
def holdTarget (k : Circuit) (s : State) : State :=
  s.setChannel k.cfg.channel
    { s.channel k.cfg.channel with target := (s.channel k.cfg.channel).level.map k.cfg.raised }

/-- A SWITCHED channel in AUTO of an untripped portal is commanded at its target at once (R99). -/
def driveSwitched (k : Circuit) (s : State) : State :=
  let ch := s.channel k.cfg.channel
  if k.cfg.switched ∧ ch.hand = none ∧ s.tripped k.portal = false then
    command k (ch.target.getD 0) s
  else s

/-- One step of a DIMMED channel's ramp toward its target (R100). -/
def rampStep (minLevel up down level target : Nat) : Nat :=
  if level < target then
    let next := min (level + up) target
    if 0 < next ∧ next < minLevel then minLevel else next
  else if target < level then
    let next := max (level - down) target
    if 0 < next ∧ next < minLevel then 0 else next
  else level

/-- Whether a channel's commanded level equals its target. -/
def atTarget (k : Circuit) (s : State) : Bool :=
  (s.channel k.cfg.channel).level == (s.channel k.cfg.channel).target

end Sys2Proof.Machine
end

