-- ==== Sys2Proof/Machine/Zones.lean ====
section
/-! DEFINITION. The Zone Sequencer (chapter 5): the split, plans, handovers, the zone under trips, and
the three timer expiries of a zone. -/

namespace Sys2Proof.Machine

/-! ### The split of a zone level (R6, R7) -/

/-- The boost share B of a zone, from the active record. -/
def State.boostShare (s : State) (p : Fin 4) (z : Fin 5) : Nat := rd (s.record p).boost z

/-- Whether a zone level needs the boost: B > 0 and Z > D (R6). -/
def needsBoost (b level : Nat) : Bool := decide (0 < b ∧ 1000 - b < level)

/-- The dimmed share d of a zone level (R6). -/
def dimmedShare (b level : Nat) : Nat := if needsBoost b level then level - b else level

/-- The dimmed channel level that goes with a share (R7). -/
def shareLevel (b share : Nat) : Nat := share * 1000 / (1000 - b)

/-- The level without boost of section 5.2; for B = 0 it is the zone level. -/
def levelWithout (b level : Nat) : Nat := shareLevel b level

/-- The level with boost of section 5.2. -/
def levelWith (b level : Nat) : Nat := shareLevel b (level - b)

/-! ### Targets (R87) and completion (R90) -/

/-- Gives every DIMMED channel of a zone the same target. -/
def steer (p : Fin 4) (z : Fin 5) (level : Nat) (s : State) : State :=
  forEach (s.dimmed p z) (fun k s => giveTarget k level s) s

/-- Gives every DIMMED channel of a zone its own commanded level as its target. -/
def holdDimmed (p : Fin 4) (z : Fin 5) (s : State) : State := forEach (s.dimmed p z) holdTarget s

/-- Gives a zone's switched channel the switched target, which it is commanded at by R99. -/
def giveSwitched (p : Fin 4) (z : Fin 5) (on : Bool) (s : State) : State :=
  match (s.set p).switchedOf p z with
  | none => s
  | some k => driveSwitched k (giveTarget k (if on then 1000 else 0) s)

/-- A ramp is complete when every counted channel has a commanded level equal to its target. -/
def rampDone (p : Fin 4) (z : Fin 5) (s : State) : Bool :=
  (s.dimmed p z).all fun k => (s.channel k.cfg.channel).hand.isSome || atTarget k s

/-- The expiry moment of an overlap timer started now (R86). -/
def overlapEnd (p : Fin 4) (s : State) : Nat := s.now + (s.record p).overlap * 100

/-- Completion of a BOOST_OFF_PREP ramp: OVERLAP_OFF with its timer started. -/
def Zone.overlapOff (zn : Zone) (expiry : Nat) : Zone :=
  { zn with state := .overlapOff, overlap := some expiry }

/-- The completion test of R90. -/
def testComplete (p : Fin 4) (z : Fin 5) (s : State) : State :=
  match s.zone p z with
  | none => s
  | some zn =>
    if rampDone p z s then
      match zn.state with
      | .ramping => s.setZone p z (some { zn with state := .steady })
      | .boostOffPrep => s.setZone p z (some (zn.overlapOff (overlapEnd p s)))
      | _ => s
    else s

/-! ### Plans (R88) -/

/-- RAMPING toward a level, or STEADY at once. -/
def enterRamping (p : Fin 4) (z : Fin 5) (zn : Zone) (level : Nat) (s : State) : State :=
  testComplete p z
    ((steer p z level s).setZone p z (some { zn with state := .ramping, overlap := none }))

/-- BOOST_OFF_PREP toward a level, or OVERLAP_OFF at once. -/
def enterBoostOffPrep (p : Fin 4) (z : Fin 5) (zn : Zone) (level : Nat) (s : State) : State :=
  testComplete p z
    ((steer p z level s).setZone p z (some { zn with state := .boostOffPrep, overlap := none }))

/-- BOOST_ON_WAIT: the confirm timer starts and the DIMMED channels are held. -/
def enterBoostOnWait (p : Fin 4) (z : Fin 5) (zn : Zone) (s : State) : State :=
  (holdDimmed p z s).setZone p z
    (some { zn with state := .boostOnWait, overlap := none, confirm := some (s.now + confirmMs) })

/-- The rows of R88, for a zone with the given items; the switched channel is given the switched
target of the plan. -/
def plan (p : Fin 4) (z : Fin 5) (zn : Zone) (s : State) : State :=
  let b := s.boostShare p z
  if b = 0 then
    let clear : Zone :=
      { zn with switched := false, confirmed := false, confirm := none, degraded := false }
    giveSwitched p z false (enterRamping p z clear (levelWithout b zn.working) s)
  else if needsBoost b zn.working then
    if zn.switched = false then
      let on : Zone := { zn with switched := true, confirmed := false }
      giveSwitched p z true (enterBoostOnWait p z on s)
    else if zn.confirmed then
      giveSwitched p z true (enterRamping p z zn (levelWith b zn.working) s)
    else if zn.degraded then
      giveSwitched p z true (enterRamping p z zn 1000 s)
    else
      giveSwitched p z true (enterBoostOnWait p z zn s)
  else if zn.switched then
    giveSwitched p z true (enterBoostOffPrep p z zn (levelWithout b zn.working) s)
  else
    giveSwitched p z false (enterRamping p z zn (levelWithout b zn.working) s)

/-- A stored latest target becomes the working target, and is cleared. -/
def Zone.takeLatest (zn : Zone) : Zone :=
  { zn with working := zn.latest.getD zn.working, latest := none }

/-- A zone target arrives (R89). -/
def zoneArrive (p : Fin 4) (z : Fin 5) (target : Nat) (s : State) : State :=
  match s.zone p z with
  | none => s
  | some zn =>
    match zn.state with
    | .steady | .ramping => plan p z { zn with working := target, latest := none } s
    | .boostOnWait | .overlapOn => s.setZone p z (some { zn with latest := some target })
    | .boostOffPrep => plan p z { zn with working := target } s
    | .overlapOff =>
      if needsBoost (s.boostShare p z) target then
        plan p z { zn with working := target, latest := none, overlap := none } s
      else s.setZone p z (some { zn with latest := some target })
    | .held => s.setZone p z (some { zn with working := target })

/-! ### Confirmation and loss of the boost -/

/-- Posts an event about a zone's switched channel to every seat. -/
def postSwitched (p : Fin 4) (z : Fin 5) (make : Fin 32 → Event) (s : State) : State :=
  match (s.set p).switchedOf p z with
  | none => s
  | some k => postAll (make k.cfg.channel) s

/-- Sets DEGRADED, posting CHANNEL_FAULT for BOOST_UNCONFIRMED, and plans afresh (R94, R96). -/
def degrade (p : Fin 4) (z : Fin 5) (zn : Zone) (s : State) : State :=
  plan p z { zn with degraded := true }
    (postSwitched p z (fun c => .channelFault p c .boostUnconfirmed) s)

/-- A confirmation (R91), late if the zone is DEGRADED (R95). -/
def confirmation (p : Fin 4) (z : Fin 5) (s : State) : State :=
  match s.zone p z with
  | none => s
  | some zn =>
    if zn.switched = false ∨ zn.state = .held then s
    else
      let on : Zone := { zn with confirmed := true, confirm := none, degraded := false }
      let overlapped : Zone := { on with state := .overlapOn, overlap := some (overlapEnd p s) }
      if zn.degraded then
        let told := postSwitched p z (fun c => .channelOk p c .boostConfirmed) s
        if needsBoost (s.boostShare p z) zn.working then
          holdDimmed p z (told.setZone p z (some overlapped))
        else told.setZone p z (some on)
      else if zn.state = .boostOnWait then s.setZone p z (some overlapped)
      else s.setZone p z (some on)

/-- A loss of boost (R96): an OPEN report, or the switched channel becomes LOST. -/
def boostLost (p : Fin 4) (z : Fin 5) (s : State) : State :=
  match s.zone p z with
  | none => s
  | some zn =>
    if zn.confirmed = false then s
    else
      let off : Zone := { zn with confirmed := false }
      match zn.state with
      | .steady | .ramping =>
        if zn.switched then degrade p z off s else s.setZone p z (some off)
      | .overlapOn => degrade p z { off.takeLatest with overlap := none } s
      | _ => s.setZone p z (some off)

/-! ### The zone under trips (R97) -/

/-- A present zone enters HELD from any state. -/
def enterHeld (p : Fin 4) (z : Fin 5) (s : State) : State :=
  match s.zone p z with
  | none => s
  | some zn =>
    s.setZone p z
      (some { zn.takeLatest with
        state := .held, overlap := none, confirm := none, confirmed := false, degraded := false })

/-- A zone of a portal that leaves TRIPPED: its switched target becomes its switched channel's fail
level, and it plans afresh. -/
def leaveHeld (p : Fin 4) (z : Fin 5) (s : State) : State :=
  match s.zone p z with
  | none => s
  | some zn =>
    let on : Bool :=
      match (s.set p).switchedOf p z with
      | none => false
      | some k => k.cfg.failLevel != 0
    plan p z { zn with switched := on } s

/-! ### A channel's return to AUTO (R87, R102) -/

/-- Whether a zone holds its DIMMED channels at levels of their own. -/
def Zone.holding (zn : Zone) : Bool := zn.state == .boostOnWait || zn.state == .overlapOn

/-- A channel in HAND returns to AUTO and is driven from its zone's target. -/
def returnToAuto (k : Circuit) (s : State) : State :=
  let c := k.cfg.channel
  let freed := s.setChannel c { s.channel c with hand := none }
  match k.cfg.zone with
  | none => driveSwitched k freed
  | some z =>
    let holding := (s.zone k.portal z).any Zone.holding
    let targeted := if !k.cfg.switched ∧ holding then holdTarget k freed else freed
    testComplete k.portal z (driveSwitched k targeted)

/-! ### The timer expiries -/

/-- OVERLAP_ON_EXPIRY (R91). -/
def execOverlapOnExpiry (p : Fin 4) (z : Fin 5) (s : State) : Host.Outcome State Fault Refusal :=
  match s.zone p z with
  | none => .next s
  | some zn =>
    if zn.state = .overlapOn ∧ s.due zn.overlap then
      done (plan p z { zn.takeLatest with overlap := none } s)
    else .next s

/-- OVERLAP_OFF_EXPIRY (R92). -/
def execOverlapOffExpiry (p : Fin 4) (z : Fin 5) (s : State) : Host.Outcome State Fault Refusal :=
  match s.zone p z with
  | none => .next s
  | some zn =>
    if zn.state = .overlapOff ∧ s.due zn.overlap then
      done (plan p z
        { zn.takeLatest with
          overlap := none, switched := false, confirmed := false, degraded := false,
          confirm := none } s)
    else .next s

/-- CONFIRM_TIMEOUT (R94). -/
def execConfirmTimeout (p : Fin 4) (z : Fin 5) (s : State) : Host.Outcome State Fault Refusal :=
  match s.zone p z with
  | none => .next s
  | some zn =>
    if zn.state ≠ .held ∧ s.due zn.confirm then
      done (degrade p z { zn.takeLatest with confirm := none } s)
    else .next s

end Sys2Proof.Machine
end

