-- ==== Sys2Proof/Machine/Channels.lean ====
section
/-! DEFINITION. The commands of Channel Output, the release of a silent seat's channels, and the ramp
interval (sections 5.6 and 5.7). -/

namespace Sys2Proof.Machine

/-- The code of a seat (R176). -/
def seatCode (seat : Seat) : Nat := (seatIx seat).val

/-- The circuit of a channel number that a command names: none above 31 or unassigned (R103). -/
def State.requested (s : State) (n : Nat) : Option Circuit :=
  if h : n < 32 then s.assignment ⟨n, h⟩ else none

/-- The completion test of the zone of a circuit (R90). -/
def testZone (k : Circuit) (s : State) : State :=
  match k.cfg.zone with
  | none => s
  | some z => testComplete k.portal z s

/-- The checks of the count and the channel number that the three commands share (R103). -/
def channelCommand (seat : Seat) (h : Header) (bytes : List Byte) (run : Circuit → State → State)
    (s : State) : State :=
  if h.records ≠ 1 then refuse seat .badValue 0 s
  else
    match s.requested (byteAt bytes 0) with
    | none => refuse seat .badValue 1 s
    | some k => run k s

/-- The commanded level of a circuit's channel, as a result value. -/
def State.levelOf (s : State) (k : Circuit) : Nat := (s.channel k.cfg.channel).level.getD 0

/-- A channel enters HAND with its commanded level as hand level (R102). -/
def enterHand (seat : Seat) (k : Circuit) (s : State) : State :=
  let ch := s.channel k.cfg.channel
  testZone k (s.setChannel k.cfg.channel { ch with hand := some { seat := seat, level := s.levelOf k } })

/-- TAKE_CHANNEL on an assigned channel (R103). -/
def takeChannelCommand (seat : Seat) (k : Circuit) (s : State) : State :=
  match (s.channel k.cfg.channel).hand with
  | some h =>
    if h.seat = seat then accept seat (s.levelOf k) false false false s
    else refuse seat .held (seatCode h.seat) s
  | none => accept seat (s.levelOf k) false false false (enterHand seat k s)

/-- TAKE_CHANNEL. -/
def execTakeChannel (seat : Seat) (h : Header) (bytes : List Byte) (s : State) :
    Host.Outcome State Fault Refusal :=
  done (withRecord seat 4 bytes s (channelCommand seat h bytes (takeChannelCommand seat)))

/-- A command on a channel that must be in HAND for its seat (R104, R105). -/
def inHand (seat : Seat) (k : Circuit) (run : Hand → State → State) (s : State) : State :=
  match (s.channel k.cfg.channel).hand with
  | none => refuse seat .notHolder 0 s
  | some h => if h.seat = seat then run h s else refuse seat .held (seatCode h.seat) s

/-- Whether a level is one of its channel's type (section 5.7). -/
def ChannelRecord.levelOk (r : ChannelRecord) (level : Nat) : Bool :=
  if r.switched then level == 0 || level == 1000 else decide (level ≤ 1000)

/-- A new hand level, commanded at once unless the portal is TRIPPED (R104). -/
def setHandLevel (k : Circuit) (h : Hand) (level : Nat) (s : State) : State :=
  let ch := s.channel k.cfg.channel
  let kept := s.setChannel k.cfg.channel
    { ch with hand := some { h with level := k.cfg.raised level } }
  if s.tripped k.portal then kept else command k level kept

/-- SET_CHANNEL on an assigned channel (R104). -/
def setChannelCommand (seat : Seat) (level : Nat) (k : Circuit) (s : State) : State :=
  inHand seat k
    (fun h s =>
      if k.cfg.levelOk level then
        let after := setHandLevel k h level s
        accept seat (after.levelOf k) (after.levelOf k != s.levelOf k)
          (k.cfg.raised level != level) false after
      else refuse seat .badValue 2 s) s

/-- SET_CHANNEL. -/
def execSetChannel (seat : Seat) (h : Header) (bytes : List Byte) (s : State) :
    Host.Outcome State Fault Refusal :=
  done (withRecord seat 4 bytes s
    (channelCommand seat h bytes (setChannelCommand seat (wordAt bytes 2))))

/-- A channel returns to AUTO and its hand seat is told (R102). -/
def releaseHand (k : Circuit) (seat : Seat) (cause : ReleaseCause) (s : State) : State :=
  postTo seat (.handReleased k.portal k.cfg.channel cause) (returnToAuto k s)

/-- RELEASE_CHANNEL on an assigned channel (R105). -/
def releaseChannelCommand (seat : Seat) (k : Circuit) (s : State) : State :=
  inHand seat k
    (fun _ s =>
      let after := releaseHand k seat .released s
      accept seat 0 (after.levelOf k != s.levelOf k) false false after) s

/-- RELEASE_CHANNEL. -/
def execReleaseChannel (seat : Seat) (h : Header) (bytes : List Byte) (s : State) :
    Host.Outcome State Fault Refusal :=
  done (withRecord seat 4 bytes s (channelCommand seat h bytes (releaseChannelCommand seat)))

/-- A silent seat's channel returns to AUTO (R106). -/
def silenceChannel (seat : Seat) (c : Fin 32) (s : State) : State :=
  match s.assignment c, (s.channel c).hand with
  | some k, some h => if h.seat = seat then releaseHand k seat .silence s else s
  | _, _ => s

/-- Every channel in HAND for a silent seat returns to AUTO (R106), in ascending order of channel number:
a DESIGN CHOICE (logs 13, 51). -/
def silenceChannels (seat : Seat) (s : State) : State := forEach allChannels (silenceChannel seat) s

/-- One channel at a ramp interval (R100). -/
def rampChannel (c : Fin 32) (s : State) : State :=
  match s.assignment c with
  | none => s
  | some k =>
    let ch := s.channel c
    match ch.level, ch.target with
    | some level, some target =>
      if k.cfg.switched ∨ ch.hand.isSome ∨ s.tripped k.portal ∨ level = target then s
      else
        let r := s.record k.portal
        let stepped :=
          command k (rampStep k.cfg.minLevel (r.upRate / 10) (r.downRate / 10) level target) s
        if atTarget k stepped then testZone k stepped else stepped
    | _, _ => s

/-- RAMP_INTERVAL (R100): it is taken at its moment, to which it carries the time base (log 3). The
channels step in ascending order of channel number: a DESIGN CHOICE (log 51). -/
def execRampInterval (s : State) : Host.Outcome State Fault Refusal :=
  let timed : State :=
    { s with now := max s.now s.nextRamp, nextRamp := s.nextRamp + rampIntervalMs }
  done (forEach allChannels rampChannel timed)

end Sys2Proof.Machine
end

