-- ==== Sys2Proof/Machine/Arbiter.lean ====
section
/-! DEFINITION. The Claim Arbiter's resolution of the effective stage (section 4.4) and its handing on
to the zones. The commands that change claim lists are in Machine/Claims.lean. -/

namespace Sys2Proof.Machine

namespace Arbiter

/-- A stage value taken from a claim, clamped to the top stage (R73). -/
def clamp (a : Arbiter) (stage : Nat) : Nat := min stage a.top

/-- The topmost claim of kinds FORCE and FREEZE (R65). -/
def stack (a : Arbiter) : Option Claim :=
  a.claims.reverse.find? fun c => c.kind == .force || c.kind == .freeze

/-- The held stage x (R73). -/
def heldStage (a : Arbiter) : Nat :=
  match a.stack with
  | none => a.automatic
  | some c => a.clamp ((if c.kind = .force then c.argument else c.captured).getD 0)

/-- The clamped arguments of the claims of one kind, oldest first. -/
def arguments (a : Arbiter) (kind : ClaimKind) : List Nat :=
  (a.claims.filter fun c => c.kind == kind).map fun c => a.clamp (c.argument.getD 0)

/-- The floor F (R73). -/
def floor (a : Arbiter) : Nat := (a.arguments .floor).foldl max 0

/-- The cap C (R73). -/
def cap (a : Arbiter) : Nat := (a.arguments .cap).foldl min a.top

/-- The effective stage that a resolution gives (R73). -/
def resolved (a : Arbiter) : Nat := max a.floor (min a.heldStage a.cap)

/-- The newest claim of a kind whose clamped argument is the given extreme value (R84). -/
def giving (a : Arbiter) (kind : ClaimKind) (value : Nat) : Option Claim :=
  a.claims.reverse.find? fun c => c.kind == kind && a.clamp (c.argument.getD 0) == value

/-- The topmost INJECT claim (R65). -/
def topInject (a : Arbiter) : Option Claim := a.claims.reverse.find? fun c => c.kind == .inject

/-- The claims of one seat in the list (R64). -/
def countOf (a : Arbiter) (seat : Seat) : Nat := (a.claims.filter fun c => c.seat == seat).length

/-- Whether the list holds a claim number. -/
def holds (a : Arbiter) (number : Nat) : Bool := a.claims.any fun c => c.number == number

end Arbiter

/-- A zone's level in the row of the effective stage (R41). -/
def State.zoneLevel (s : State) (p : Fin 4) (z : Fin 5) : Nat :=
  rd ((s.set p).row (s.arbiter p).effective).levels z

/-- The effective stage is resolved and, if it changed, replaced and reported (R74). -/
def resolveStage (p : Fin 4) (s : State) : State :=
  let a := s.arbiter p
  if a.resolved = a.effective then s
  else
    postAll (.stageChanged p a.effective a.resolved a.automatic)
      (s.setArbiter p { a with effective := a.resolved })

/-- Each present zone is handed its target (R41, R89), in ascending order of zone number: a DESIGN
CHOICE (log 51). -/
def handTargets (p : Fin 4) (s : State) : State :=
  forEach allZones (fun z s => zoneArrive p z (s.zoneLevel p z) s) s

/-- A resolution outside adoptions: the zones receive targets if the effective stage changed (R74). -/
def resolve (p : Fin 4) (s : State) : State :=
  let after := resolveStage p s
  if (after.arbiter p).effective = (s.arbiter p).effective then after else handTargets p after

end Sys2Proof.Machine
end

