-- ==== Sys2Proof/Machine/Selector.lean ====
section
/-! DEFINITION. The Stage Selector (chapter 3): the upward and downward tests, initial selection,
AT_TOP, and the dwell expiry. -/

namespace Sys2Proof.Machine

/-- The automatic stage is set: the dwell timer starts (R49) and the stage and the top stage are
handed to the Claim Arbiter (R51). -/
def setStage (p : Fin 4) (stage : Nat) (s : State) : State :=
  let dwell := ((s.set p).row stage).dwell
  let selected := s.setSelector p
    { s.selector p with
      automatic := stage, dwell := some (s.now + dwell * 1000), enteredAt := s.tenths }
  selected.setArbiter p { s.arbiter p with automatic := stage, top := (s.set p).top }

/-- The automatic stage is set outside an adoption, and the Claim Arbiter resolves (R72). -/
def moveTo (p : Fin 4) (stage : Nat) (s : State) : State := resolve p (setStage p stage s)

/-- The highest stage above `low` whose rise threshold is at or below a demand (R47, R52). -/
def PortalSet.risen (x : PortalSet) (low demand : Nat) : Option Nat :=
  (List.range x.stageCount).reverse.find? fun t =>
    decide (low < t) && (x.row t).rise.any fun r => decide (r ≤ demand)

/-- The stage of an initial selection (R52). -/
def PortalSet.initialStage (x : PortalSet) (demand : Nat) : Nat := (x.risen 0 demand).getD 0

/-- Whether the demand in use is below the fall threshold of the automatic stage (R48). -/
def State.undercuts (s : State) (p : Fin 4) : Bool :=
  match (s.selector p).demandInUse, ((s.set p).row (s.selector p).automatic).fall with
  | some d, some f => decide (d < f)
  | _, _ => false

/-- The downward test (R48). -/
def downward (p : Fin 4) (s : State) : State :=
  let l := s.selector p
  if 0 < l.automatic ∧ s.undercuts p ∧ l.dwell = none then moveTo p (l.automatic - 1) s else s

/-- The mode and the demand in use are set. -/
def follow (p : Fin 4) (following : Bool) (demand : Option Nat) (s : State) : State :=
  s.setSelector p { s.selector p with following := following, demandInUse := demand }

/-- An offer of demand applied in FOLLOWING (R46). -/
def offer (p : Fin 4) (demand : Nat) (s : State) : State :=
  let used := follow p true (some demand) s
  match (s.set p).risen (s.selector p).automatic demand with
  | some t => moveTo p t used
  | none => downward p used

/-- Entry to AT_TOP outside an adoption (R54). -/
def enterTop (p : Fin 4) (s : State) : State := moveTo p (s.set p).top (follow p false none s)

/-- The initial selection of R56. -/
def selectInitial (p : Fin 4) (demand : Nat) (s : State) : State :=
  moveTo p ((s.set p).initialStage demand) (follow p true (some demand) s)

/-- DWELL_EXPIRY (R49). -/
def execDwellExpiry (p : Fin 4) (s : State) : Host.Outcome State Fault Refusal :=
  let l := s.selector p
  if s.due l.dwell then
    let run := s.setSelector p { l with dwell := none }
    if l.following then done (downward p run) else .next run
  else .next s

end Sys2Proof.Machine
end

