-- ==== Sys2Proof/Machine/Evaluator.lean ====
section
/-! DEFINITION. The Portal Evaluator (sections 2.5 and 2.6): source status, access luminance, demand,
the mismatch test, and what is handed to the Stage Selector. -/

namespace Sys2Proof.Machine

/-- The source status that a meter source gives without an INJECT claim. -/
def MeterSource.status : MeterSource → SourceStatus
  | .none => .none
  | .live => .live
  | .hold => .hold
  | .lost => .lost

/-- The meters that a record binds, by slot. -/
def PortalRecord.meters (r : PortalRecord) : List (Fin 8) := r.slot0.toList ++ r.slot1.toList

/-- The estimates of the bound meters that are VALID. -/
def State.validEstimates (s : State) (p : Fin 4) : List Nat :=
  ((s.record p).meters.filter fun m => (s.meter m).state == .valid).map fun m =>
    ((s.meter m).estimate).getD 0

/-- The largest estimate among the bound meters that are VALID (R30). -/
def State.bestEstimate (s : State) (p : Fin 4) : Nat := (s.validEstimates p).foldl max 0

/-- Two estimates disagree when they differ by more than 25 % of the larger (R33). -/
def disagree (a b : Nat) : Bool := decide (max a b < 4 * (max a b - min a b))

/-- Both slots name VALID meters: the two, with their estimates. -/
def State.pair (s : State) (p : Fin 4) : Option (Nat × Nat) :=
  match (s.record p).slot0, (s.record p).slot1 with
  | some a, some b =>
    if (s.meter a).state = .valid ∧ (s.meter b).state = .valid then
      some ((s.meter a).estimate.getD 0, (s.meter b).estimate.getD 0)
    else none
  | _, _ => none

/-- The mismatch test made at each evaluation (R33, R34). -/
def Evaluator.testMismatch (e : Evaluator) (pair : Option (Nat × Nat)) (now : Nat) : Evaluator :=
  let disagreeing : Bool :=
    match pair with
    | some (a, b) => disagree a b
    | none => false
  if disagreeing then
    if e.mismatchReported || e.mismatchSince.isSome then e else { e with mismatchSince := some now }
  else { e with mismatchSince := none, mismatchReported := false }

/-- The source status of a portal (R29). -/
def State.statusOf (s : State) (p : Fin 4) : SourceStatus :=
  if (s.arbiter p).topInject.isSome then .injected else (s.eval p).source.status

/-- Whether demand is formed in a source status (R31). -/
def SourceStatus.offers : SourceStatus → Bool
  | .live => true
  | .hold => true
  | .injected => true
  | .none => false
  | .lost => false

/-- Whether a source status makes a STARTING portal RUNNING (R2). -/
def SourceStatus.starts (x : SourceStatus) : Bool := x == .live || x == .injected

/-- A STARTING portal whose source status is LIVE or INJECTED is RUNNING (R2), and a meter source of
NONE becomes LOST with it (R27). -/
def startRunning (p : Fin 4) (s : State) : State :=
  if s.baseOf p = .starting ∧ (s.statusOf p).starts then
    let e := s.eval p
    let source : MeterSource := if e.source = .none then .lost else e.source
    (s.setBase p .running).setEval p { e with source := source }
  else s

/-- The access luminance A by the source status (R30). -/
def State.luminanceOf (s : State) (p : Fin 4) : Nat :=
  match s.statusOf p with
  | .injected => ((s.arbiter p).topInject.bind Claim.argument).getD 0
  | .live => s.bestEstimate p
  | .hold => (s.eval p).held
  | .lost => (s.eval p).luminance
  | .none => 0

/-- One evaluation (R30, R31, R33) with its event (R32), before anything is handed over. So SOURCE_CHANGED
stands before a STAGE_CHANGED that the status or the demand handed over brings about: a DESIGN CHOICE (log
13). -/
def evaluateOnly (p : Fin 4) (s : State) : State :=
  let run := startRunning p s
  let e := run.eval p
  let status := run.statusOf p
  let a := run.luminanceOf p
  let demand := if status.offers then a * (run.record p).k / 100 else e.demand
  let next : Evaluator :=
    ({ e with status := status, luminance := a, demand := demand }).testMismatch (run.pair p) run.now
  let told := if status = e.status then run else postAll (.sourceChanged p status) run
  told.setEval p next

/-- What the Stage Selector is handed after an evaluation outside an adoption (R54 to R57), from the
base state and the source status before it. -/
def handOver (p : Fin 4) (base : BaseState) (status : SourceStatus) (s : State) : State :=
  let e := s.eval p
  if s.baseOf p = .running then
    if base = .starting then offer p e.demand s
    else if e.status = .lost then
      if status = .lost then s else enterTop p s
    else if status = .lost then selectInitial p e.demand s
    else if e.status.offers then offer p e.demand s
    else s
  else s

/-- An evaluation outside an adoption. -/
def evaluate (p : Fin 4) (s : State) : State :=
  handOver p (s.baseOf p) (s.eval p).status (evaluateOnly p s)

/-- A bound meter has entered VALID (R27). -/
def meterEnteredValid (p : Fin 4) (s : State) : State :=
  evaluate p (s.setEval p { s.eval p with source := .live, holdSince := none })

/-- The meter source when no bound meter is VALID any more: from LIVE to HOLD, or to LOST when Thold
is 0, with the largest estimate that was VALID before (R27, R30). -/
def Evaluator.loseMeters (e : Evaluator) (best tHold now : Nat) : Evaluator :=
  if e.source = .live then
    if 0 < tHold then { e with source := .hold, holdSince := some now, held := best }
    else { e with source := .lost, held := best }
  else e

/-- A bound meter has left VALID; `best` is the largest estimate before it left. -/
def meterLeftValid (p : Fin 4) (best : Nat) (s : State) : State :=
  if s.validEstimates p = [] then
    evaluate p (s.setEval p ((s.eval p).loseMeters best (s.record p).tHold s.now))
  else evaluate p s

/-- The moment at which a portal's hold timer expires, while it runs (R28). -/
def State.holdEnd (s : State) (p : Fin 4) : Option Nat :=
  (s.eval p).holdSince.map fun t => t + (s.record p).tHold * 1000

/-- The moment at which a portal's mismatch timer expires, while it runs (R33). -/
def State.mismatchEnd (s : State) (p : Fin 4) : Option Nat :=
  (s.eval p).mismatchSince.map fun t => t + mismatchMs

/-- HOLD becomes LOST (R27). -/
def Evaluator.lose (e : Evaluator) : Evaluator := { e with source := .lost, holdSince := none }

/-- HOLD_TIMER_EXPIRY (R27): beneath an INJECT claim the source status does not change, and nothing
is evaluated (R30, R32). -/
def execHoldTimerExpiry (p : Fin 4) (s : State) : Host.Outcome State Fault Refusal :=
  if (s.eval p).source = .hold ∧ s.due (s.holdEnd p) then
    let lost := s.setEval p (s.eval p).lose
    if (s.eval p).status = .hold then done (evaluate p lost) else .next lost
  else .next s

/-- MISMATCH (R34). -/
def execMismatch (p : Fin 4) (s : State) : Host.Outcome State Fault Refusal :=
  match (s.record p).slot0, (s.record p).slot1 with
  | some a, some b =>
    if s.due (s.mismatchEnd p) then
      let event : Event :=
        .mismatch p a ((s.meter a).estimate.getD 0) b ((s.meter b).estimate.getD 0)
      .next ((postAll event s).setEval p
        { s.eval p with mismatchSince := none, mismatchReported := true })
    else .next s
  | _, _ => .next s

end Sys2Proof.Machine
end

