-- ==== Sys2Proof/Machine/Claims.lean ====
section
/-! DEFINITION. Claims (chapter 4): pushing, withdrawal, expiry and silence. The resolution itself is in
Machine/Arbiter.lean. -/

namespace Sys2Proof.Machine

/-! ### Claim numbers (R66) -/

/-- The claim number after another, from 65,535 to 1. -/
def nextNumber (n : Nat) : Nat := if 65535 ≤ n then 1 else n + 1

/-- Whether any list holds a claim number. -/
def State.numberHeld (s : State) (n : Nat) : Bool := allPortals.any fun p => (s.arbiter p).holds n

/-- The first number from `n` on that no list holds, within the 49 steps that R66 allows. -/
def State.allocate (s : State) (n : Nat) (steps : Nat) : Nat :=
  match steps with
  | 0 => n
  | k + 1 => if s.numberHeld n then s.allocate (nextNumber n) k else n

/-! ### What follows from a changed list -/

/-- The list of a portal is replaced. -/
def setClaims (p : Fin 4) (l : List Claim) (s : State) : State :=
  s.setArbiter p { s.arbiter p with claims := l }

/-- After a change of the list: one resolution (R72), and after it an evaluation if the change altered
which INJECT claim is topmost (R75). -/
def claimsChanged (p : Fin 4) (injection : Bool) (s : State) : State :=
  let resolved := resolve p s
  if injection then evaluate p resolved else resolved

/-- The claims of a list that meet a test leave it, each with its event, in list order, oldest first: a
DESIGN CHOICE where there are several (R76, log 13). The removal alters the topmost INJECT claim where that
claim is among those that leave (R75). -/
def removeClaims (p : Fin 4) (gone : Claim → Bool) (tell : Claim → State → State) (s : State) :
    State :=
  let l := (s.arbiter p).claims
  if l.any gone then
    claimsChanged p ((s.arbiter p).topInject.any gone)
      (forEach (l.filter gone) tell (setClaims p (l.filter fun c => !gone c) s))
  else s

/-! ### PUSH_CLAIM (R68 to R71) -/

/-- The claim record of one copy (R63, R71). -/
def ClaimRequest.copy (q : ClaimRequest) (seat : Seat) (number time effective : Nat) : Claim :=
  { number := number, seat := seat, kind := q.kind
    argument := if q.kind = .freeze then none else some q.argument
    captured := if q.kind = .freeze then some effective else none
    kept := q.kept, deadline := q.deadline.map fun d => time + 10 * d, pushedAt := time }

/-- A copy joins a portal's list at the tail; a pushed INJECT claim is the new topmost one (R75). -/
def pushCopy (q : ClaimRequest) (seat : Seat) (number : Nat) (p : Fin 4) (s : State) : State :=
  let a := s.arbiter p
  claimsChanged p (q.kind == .inject)
    (setClaims p (a.claims ++ [q.copy seat number s.tenths a.effective]) s)

/-- Whether a push carries a stage argument above the top stage of a portal (R71). -/
def ClaimRequest.above (q : ClaimRequest) (top : Nat) : Bool :=
  (q.kind == .force || q.kind == .floor || q.kind == .cap) && decide (top < q.argument)

/-- An accepted push. The copies join portal by portal in ascending order, each with all that follows at
its portal, so that the STAGE_CHANGED and SOURCE_CHANGED records of one portal stand before those of the
next: a DESIGN CHOICE (log 42). -/
def acceptPush (seat : Seat) (h : Header) (q : ClaimRequest) (s : State) : State :=
  let number := s.allocate s.claimCounter 49
  let raised := h.portals.any fun p => q.above (s.set p).top
  let counted : State := { s with claimCounter := nextNumber number }
  accept seat number true raised false (forEach h.portals (pushCopy q seat number) counted)

/-- The checks of PUSH_CLAIM (R69, R70). -/
def pushClaimCommand (seat : Seat) (h : Header) (bytes : List Byte) (s : State) : State :=
  if h.records ≠ 1 then refuse seat .badValue 0 s
  else if h.portals = [] then refuse seat .badValue 0 s
  else
    match claimRequest bytes with
    | none => refuse seat .badValue 1 s
    | some q =>
      match q.refusal with
      | some value => refuse seat .badValue value s
      | none =>
        match h.portals.find? fun p => decide (4 ≤ (s.arbiter p).countOf seat) with
        | some p => refuse seat .quota p.val s
        | none => acceptPush seat h q s

/-- PUSH_CLAIM. -/
def execPushClaim (seat : Seat) (h : Header) (bytes : List Byte) (s : State) :
    Host.Outcome State Fault Refusal :=
  done (withRecord seat 8 bytes s (pushClaimCommand seat h bytes))

/-! ### WITHDRAW and WITHDRAW_ANY (R77, R78) -/

/-- The portals whose lists hold a claim number. -/
def State.holders (s : State) (n : Nat) : List (Fin 4) :=
  allPortals.filter fun p => (s.arbiter p).holds n

/-- Whether a seat owns a copy of a claim number. -/
def State.owns (s : State) (seat : Seat) (n : Nat) : Bool :=
  allPortals.any fun p => (s.arbiter p).claims.any fun c => c.number == n && c.seat == seat

/-- Every copy of a number leaves its list, portal by portal in ascending order (log 42). -/
def removeNumber (n : Nat) (tell : Fin 4 → Claim → State → State) (s : State) : State :=
  forEach allPortals (fun p s => removeClaims p (fun c => c.number == n) (tell p) s) s

/-- The checks and the effect of WITHDRAW. -/
def withdrawCommand (seat : Seat) (h : Header) (n : Nat) (s : State) : State :=
  if h.records ≠ 1 ∨ n = 0 then refuse seat .badValue 0 s
  else if s.holders n = [] then refuse seat .noClaim 0 s
  else if !s.owns seat n then refuse seat .notOwner 0 s
  else accept seat (maskOf (s.holders n)) true false false (removeNumber n (fun _ _ s => s) s)

/-- WITHDRAW. -/
def execWithdraw (seat : Seat) (h : Header) (bytes : List Byte) (s : State) :
    Host.Outcome State Fault Refusal :=
  done (withRecord seat 2 bytes s (withdrawCommand seat h (wordAt bytes 0)))

/-- The owner of a removed claim is told, unless it is Seat L (R78). -/
def tellWithdrawn (p : Fin 4) (c : Claim) (s : State) : State :=
  if c.seat = .L then s else postTo c.seat (.claimRemoved p c.number c.kind false) s

/-- The checks and the effect of WITHDRAW_ANY from Seat L. -/
def withdrawAnyCommand (seat : Seat) (h : Header) (n : Nat) (s : State) : State :=
  if h.records ≠ 1 ∨ n = 0 then refuse seat .badValue 0 s
  else if s.holders n = [] then refuse seat .noClaim 0 s
  else accept seat (maskOf (s.holders n)) true false false (removeNumber n tellWithdrawn s)

/-- WITHDRAW_ANY: from Seat A or B it ends at its header (R143). -/
def execWithdrawAny (seat : Seat) (h : Header) (bytes : List Byte) (s : State) :
    Host.Outcome State Fault Refusal :=
  if seat ≠ .L then .next (inHeader seat s (refuse seat .seatDenied 0))
  else done (withRecord seat 2 bytes s (withdrawAnyCommand seat h (wordAt bytes 0)))

/-! ### Expiry and silence (R79, R81) -/

/-- The owner of an expired copy is told. -/
def tellExpired (p : Fin 4) (c : Claim) (s : State) : State :=
  postTo c.seat (.claimExpired p c.number c.kind) s

/-- CLAIM_EXPIRED (R79): the copy of a number at one portal, if its deadline is reached. -/
def execClaimExpired (p : Fin 4) (n : Nat) (s : State) : Host.Outcome State Fault Refusal :=
  done (removeClaims p (fun c => c.number == n && s.passed c.deadline) (tellExpired p) s)

/-- The owner of a claim removed by its silence is told (R81). -/
def tellSilence (p : Fin 4) (c : Claim) (s : State) : State :=
  postTo c.seat (.claimRemoved p c.number c.kind true) s

/-- Every TIED claim of a silent seat is removed from every list (R81). -/
def silenceClaims (seat : Seat) (s : State) : State :=
  forEach allPortals
    (fun p s => removeClaims p (fun c => c.seat == seat && !c.kept) (tellSilence p) s) s

end Sys2Proof.Machine
end

