-- ==== Sys2Proof/Machine/Meters.lean ====
section
/-! DEFINITION. The Meter Intake (sections 2.1 to 2.4): reading frames, the sample ring, the meter
states, the estimate, and the stale deadline. -/

namespace Sys2Proof.Machine

/-! ### The estimate (R25) -/

/-- The median of three values. -/
def median3 (a b c : Nat) : Nat := max (min a b) (min (max a b) c)

/-- The median of the newest three entries of a ring. -/
def medianOf (ring : List Reading) : Nat :=
  match ring.reverse with
  | a :: b :: c :: _ => median3 a.luminance b.luminance c.luminance
  | _ => 0

/-- The mean of the newest `n` entries, or of all of them if there are fewer, rounded down. -/
def meanOf (n : Nat) (ring : List Reading) : Nat :=
  let newest := ring.reverse.take n
  (newest.map Reading.luminance).sum / newest.length

/-- The estimate formed again from the ring. -/
def nextEstimate (n old : Nat) (ring : List Reading) : Nat :=
  if old < medianOf ring then medianOf ring
  else if meanOf n ring < old then meanOf n ring
  else old

/-! ### The sample ring (R18) -/

/-- A reading joins a ring of at most 16 as its newest entry. -/
def joinRing (ring : List Reading) (r : Reading) : List Reading :=
  if ring.length < 16 then ring ++ [r] else ring.tail ++ [r]

namespace Meter

/-- A duplicate of the newest ring entry (R16). -/
def duplicates (x : Meter) (seq : Nat) : Bool := x.ring.getLast?.any fun r => r.seq == seq

/-- An accepted reading joins the ring, moves the deadline and clears the bad-frame count (R20, R21). -/
def take (x : Meter) (r : Reading) (tStale : Nat) : Meter :=
  { x with
    ring := joinRing x.ring r, badCount := 0, staleDeadline := some (r.arrival + 10 * tStale) }

/-- STARTING afresh, with an empty ring (R19, R22). -/
def restart (x : Meter) : Meter :=
  { x with state := .starting, ring := [], estimate := none, badCount := 0, staleDeadline := none }

/-- Entry to FAULTED (R23). -/
def fault (x : Meter) : Meter :=
  { x with state := .faulted, estimate := none, badCount := 0, staleDeadline := none }

/-- What the passing of the stale deadline does to the meter (R20, R21). -/
def expire (x : Meter) : Meter :=
  match x.state with
  | .starting => { x with ring := [], staleDeadline := none }
  | .valid => { x with state := .stale, staleDeadline := none }
  | _ => { x with staleDeadline := none }

end Meter

/-- A meter changes; a change of its state is posted (R24). -/
def changeMeter (m : Fin 8) (p : Fin 4) (cause : MeterCause) (x : Meter) (s : State) : State :=
  let left := (s.meter m).state
  if left = x.state then s.setMeter m x
  else postAll (.meterState p m cause left x.state) (s.setMeter m x)

/-- The items that every frame not discarded updates, whatever its class (R17). -/
def noteFrame (m : Fin 8) (f : ReadingFrame) (s : State) : State :=
  let x := s.meter m
  let noted := s.setMeter m { x with lastSeq := some f.seq, window := f.window, heater := f.heater }
  if x.window = f.window ∧ x.heater = f.heater then noted
  else postAll (.meterFlags m f.window f.heater) noted

/-- A meter is sent to FAULTED; if it was VALID its portal is told (R23). -/
def sendToFault (m : Fin 8) (p : Fin 4) (cause : MeterCause) (s : State) : State :=
  let x := s.meter m
  let faulted := changeMeter m p cause x.fault s
  if x.state = .valid then meterLeftValid p (s.bestEstimate p) faulted else faulted

/-- A sensor-fault frame at a bound meter (R23). -/
def sensorFault (m : Fin 8) (p : Fin 4) (s : State) : State :=
  if (s.meter m).state = .faulted then s else sendToFault m p .sensor s

/-- An out-of-range frame at a bound meter (R23). -/
def rangeFault (m : Fin 8) (p : Fin 4) (s : State) : State :=
  let x := s.meter m
  match x.state with
  | .unused | .faulted => s
  | .starting => sendToFault m p .range s
  | .valid | .stale =>
    if 3 ≤ x.badCount + 1 then sendToFault m p .range s
    else s.setMeter m { x with badCount := x.badCount + 1 }

/-- An accepted reading at a bound meter (R20 to R22, R25). -/
def acceptReading (m : Fin 8) (p : Fin 4) (r : Reading) (s : State) : State :=
  let x := s.meter m
  let tStale := (s.record p).tStale
  match x.state with
  | .unused => s
  | .starting =>
    let x1 := x.take r tStale
    if x1.ring.length = 3 then
      meterEnteredValid p
        (changeMeter m p .readings { x1 with state := .valid, estimate := some (medianOf x1.ring) } s)
    else s.setMeter m x1
  | .valid =>
    let x1 := x.take r tStale
    let e := nextEstimate (s.record p).window (x.estimate.getD 0) x1.ring
    evaluate p (s.setMeter m { x1 with estimate := some e })
  | .stale | .faulted => changeMeter m p .recovered (x.restart.take r tStale) s

/-- The handling of an undamaged frame by its class (R16, R17). -/
def handleReading (m : Fin 8) (p : Fin 4) (f : ReadingFrame) (s : State) : State :=
  let noted := noteFrame m f s
  if f.sensor then sensorFault m p noted
  else if 20000 < f.luminance then rangeFault m p noted
  else acceptReading m p { seq := f.seq, luminance := f.luminance, arrival := s.tenths } noted

/-- A reading frame arrives (R15, R16): frames of an UNUSED meter and duplicates are discarded. -/
def takeReading (m : Fin 8) (f : ReadingFrame) (s : State) : State :=
  match s.meterPortal m with
  | none => s
  | some p =>
    let x := s.meter m
    if x.state = .unused ∨ x.duplicates f.seq then s
    else beginTransactions (handleReading m p f s)

/-- READING_FRAME (R15, R16, R180): an undamaged frame arrives, at the moment of its last byte. -/
def execReadingFrame (m : Fin 8) (burst : Burst) (s : State) : Host.Outcome State Fault Refusal :=
  match (burst.frame false).bind readingFrameOf with
  | none => .next s
  | some f => .next (takeReading m f s)

/-- STALE_DEADLINE (R20, R21). -/
def execStaleDeadline (m : Fin 8) (s : State) : Host.Outcome State Fault Refusal :=
  let x := s.meter m
  match s.meterPortal m with
  | none => .next s
  | some p =>
    if s.passed x.staleDeadline then
      let expired := changeMeter m p .timeout x.expire s
      if x.state = .valid then done (meterLeftValid p (s.bestEstimate p) expired)
      else .next expired
    else .next s

end Sys2Proof.Machine
end

