-- ==== Sys2Proof/Machine/Trips.lean ====
section
/-! DEFINITION. The Trip Unit (chapter 6): sources, the overlay and what it does to channels and
zones, the fire input, and the two trip commands. -/

namespace Sys2Proof.Machine

namespace TripSet

/-- No trip source. -/
def empty : TripSet := { fire := false, line := false, order := false }

/-- Whether a set names a source. -/
def has (x : TripSet) : TripSource → Bool
  | .fire => x.fire
  | .line => x.line
  | .order => x.order

/-- A set with one more source. -/
def join (x : TripSet) : TripSource → TripSet
  | .fire => { x with fire := true }
  | .line => { x with line := true }
  | .order => { x with order := true }

/-- The sources that two sets share. -/
def meet (x y : TripSet) : TripSet :=
  { fire := x.fire && y.fire, line := x.line && y.line, order := x.order && y.order }

end TripSet

/-- Whether LINE is present (R114). -/
def State.linePresent (s : State) (p : Fin 4) : Bool :=
  (s.record p).lineArmed && (s.tripUnit p).lineDown && s.baseOf p != .unconfigured

/-- The trip sources by R110. -/
def State.sourcesOf (s : State) (p : Fin 4) : TripSet :=
  { fire := (s.tripUnit p).fireLatch.isSome, line := s.linePresent p,
    order := (s.tripUnit p).orderLatch.isSome }

/-- Every channel of the active set is commanded at its fail level (R99), in ascending order of driver
address: a DESIGN CHOICE (log 51). -/
def commandFailLevels (p : Fin 4) (s : State) : State :=
  forEach (s.circuits p) (fun k s => command k k.cfg.failLevel s) s

/-- A portal enters TRIPPED (R116). -/
def enterTrip (p : Fin 4) (s : State) : State :=
  let set := s.setTrip p { s.tripUnit p with overlay := true, overlayAt := some s.tenths }
  forEach allZones (enterHeld p) (commandFailLevels p set)

/-- A channel of a portal that has left TRIPPED (R99): HAND jumps to the hand level, a SWITCHED
channel in AUTO takes its target, a DIMMED one ramps. -/
def leaveFailLevel (k : Circuit) (s : State) : State :=
  match (s.channel k.cfg.channel).hand with
  | some h => command k h.level s
  | none => driveSwitched k s

/-- A portal leaves TRIPPED (R120): its zones plan from the fail levels, then its channels leave them
(log 21), each in ascending order: a DESIGN CHOICE (log 51). -/
def exitTrip (p : Fin 4) (s : State) : State :=
  let clear := postAll (.tripCleared p) (s.setTrip p { s.tripUnit p with overlay := false })
  let planned := forEach allZones (leaveHeld p) clear
  forEach (planned.circuits p) leaveFailLevel planned

/-- A source joins the set (R110): the first sets the overlay, and TRIPPED is posted for each (R116). -/
def joinSource (p : Fin 4) (source : TripSource) (s : State) : State :=
  let u := s.tripUnit p
  let sources := u.sources.join source
  let joined := s.setTrip p { u with sources := sources }
  postAll (.tripped p source sources) (if u.overlay then joined else enterTrip p joined)

/-- A source that is new and was not kept joins the set. -/
def joinIfNew (p : Fin 4) (new kept : TripSet) (x : TripSource) (s : State) : State :=
  if new.has x && !kept.has x then joinSource p x s else s

/-- The trip sources and the overlay are recomputed (R110). Sources that have gone leave first, so
that TRIPPED names the set after the event; joining ones join in the order of their codes (log 29). -/
def recompute (p : Fin 4) (s : State) : State :=
  let new := s.sourcesOf p
  let kept := (s.tripUnit p).sources.meet new
  let left := s.setTrip p { s.tripUnit p with sources := kept }
  let joined :=
    joinIfNew p new kept .order (joinIfNew p new kept .line (joinIfNew p new kept .fire left))
  if new = TripSet.empty ∧ (joined.tripUnit p).overlay then exitTrip p joined else joined

/-! ### The fire input -/

/-- The level of the fire input as read through the polarity of the active record (R111). -/
def State.fireRead (s : State) (p : Fin 4) : Bool :=
  xor (rd s.firePins p) (s.record p).activeLow

/-- A change of the fire input level, with its debounce (R112). -/
def TripUnit.change (u : TripUnit) (level : Bool) (now : Nat) : TripUnit :=
  { u with
    fireLevel := level
    debounce := if level = u.debounced then none else some (now + debounceMs) }

/-- The conditions of R113 for latching FIRE. -/
def State.fireLatches (s : State) (p : Fin 4) : Bool :=
  (s.tripUnit p).debounced && (s.record p).fireArmed && s.baseOf p != .unconfigured &&
    (s.tripUnit p).fireLatch.isNone

/-- FIRE is latched if R113 says so. -/
def latchFire (p : Fin 4) (s : State) : State :=
  if s.fireLatches p then s.setTrip p { s.tripUnit p with fireLatch := some s.tenths } else s

/-- FIRE_INPUT_CHANGE (R111, R112); a level that the input already has is no change. -/
def execFireInputChange (p : Fin 4) (high : Bool) (s : State) : Host.Outcome State Fault Refusal :=
  if rd s.firePins p = high then .next s
  else
    let wired : State := { s with firePins := wr s.firePins p high }
    .next (wired.setTrip p ((wired.tripUnit p).change (wired.fireRead p) wired.now))

/-- DEBOUNCE_EXPIRY (R112, R113). -/
def execDebounceExpiry (p : Fin 4) (s : State) : Host.Outcome State Fault Refusal :=
  let u := s.tripUnit p
  if s.due u.debounce then
    let settled := s.setTrip p { u with debounced := u.fireLevel, debounce := none }
    done (recompute p (latchFire p (postAll (.fireInput p u.fireLevel) settled)))
  else .next s

/-! ### TRIP and TRIP_RESET -/

/-- Of some portals, those whose overlay differs between two states in the way given. -/
def overlayMask (l : List (Fin 4)) (before after : State) (overlay : Bool) : Nat :=
  maskOf (l.filter fun p => before.tripped p != overlay && after.tripped p == overlay)

/-- ORDER is latched on a portal whose ORDER latch is clear (R115). -/
def orderTrip (seat : Seat) (reason : Nat) (p : Fin 4) (s : State) : State :=
  let u := s.tripUnit p
  if u.orderLatch.isSome then s
  else
    let latch : OrderLatch := { seat := seat, reason := reason, time := s.tenths }
    recompute p (s.setTrip p { u with orderLatch := some latch })

/-- The checks and the effect of TRIP (R115). The TRIPPED records of several portals stand in ascending
order of portal number: a DESIGN CHOICE (log 43). -/
def tripCommand (seat : Seat) (h : Header) (reason : Nat) (s : State) : State :=
  if h.records ≠ 1 then refuse seat .badValue 0 s
  else if h.portals = [] then refuse seat .badValue 0 s
  else if h.portals.any fun p => s.baseOf p == .unconfigured then refuse seat .badValue 1 s
  else
    let after := forEach h.portals (orderTrip seat reason) s
    let mask := overlayMask h.portals s after true
    accept seat mask (mask != 0) false false after

/-- TRIP. -/
def execTrip (seat : Seat) (h : Header) (bytes : List Byte) (s : State) :
    Host.Outcome State Fault Refusal :=
  done (withRecord seat 2 bytes s (tripCommand seat h (byteAt bytes 0)))

/-- Whether a portal has a named source latched (R119). -/
def State.namedLatched (s : State) (fire order : Bool) (p : Fin 4) : Bool :=
  (fire && (s.tripUnit p).fireLatch.isSome) || (order && (s.tripUnit p).orderLatch.isSome)

/-- Whether a portal's FIRE latch cannot be reset because its input is still debounced ACTIVE. -/
def State.fireActive (s : State) (p : Fin 4) : Bool :=
  (s.tripUnit p).fireLatch.isSome && (s.tripUnit p).debounced

/-- The named sources are cleared on one portal (R119). -/
def resetTrip (fire order : Bool) (p : Fin 4) (s : State) : State :=
  let u := s.tripUnit p
  recompute p (s.setTrip p
    { u with
      fireLatch := if fire then none else u.fireLatch
      orderLatch := if order then none else u.orderLatch })

/-- The checks and the effect of TRIP_RESET (R119). The TRIP_CLEARED records of several portals stand in
ascending order of portal number: a DESIGN CHOICE (log 43). -/
def tripResetCommand (seat : Seat) (h : Header) (fire order : Bool) (s : State) : State :=
  if h.records ≠ 1 then refuse seat .badValue 0 s
  else if h.portals = [] then refuse seat .badValue 0 s
  else if !fire && !order then refuse seat .badValue 1 s
  else
    match h.portals.find? fun p => fire && s.fireActive p with
    | some p => refuse seat .active p.val s
    | none =>
      if h.portals.any (s.namedLatched fire order) then
        let after := forEach h.portals (resetTrip fire order) s
        let mask := overlayMask h.portals s after false
        accept seat mask (mask != 0) false false after
      else refuse seat .notTripped 0 s

/-- TRIP_RESET. -/
def execTripReset (seat : Seat) (h : Header) (bytes : List Byte) (s : State) :
    Host.Outcome State Fault Refusal :=
  done (withRecord seat 2 bytes s (tripResetCommand seat h (bitAt bytes 0 0) (bitAt bytes 0 1)))

end Sys2Proof.Machine
end

