-- ==== Sys2Proof/Machine/Replies.lean ====
section
/-! DEFINITION. What ends a lamp line transaction and what follows from it (chapter 7): the frame
sent, a reply, a miss, the line condition, and a completed farewell. -/

namespace Sys2Proof.Machine

/-- The line condition is tested by R134; a change is posted and reported to the Trip Unit, which has
not yet acted on it. -/
def testLineOnly (n : Fin 4) (s : State) : State :=
  let l := s.lampLine n
  if l.allLost = l.down then s
  else
    let told := postAll (.lineState n l.allLost) (s.setLine n { l with down := l.allLost })
    told.setTrip n { told.tripUnit n with lineDown := l.allLost }

/-- The line condition is tested by R134, and the Trip Unit acts on a change (R114). -/
def testLine (n : Fin 4) (s : State) : State :=
  if (s.lampLine n).allLost = (s.lampLine n).down then s else recompute n (testLineOnly n s)

/-- A circuit's present commanded level enters its line's update set (R130). -/
def enterLevel (k : Circuit) (s : State) : State :=
  match (s.channel k.cfg.channel).level with
  | none => s
  | some level =>
    s.setLine k.portal ((s.lampLine k.portal).enter k.addr level k.cfg.channel)

/-- What the zone of a circuit's channel is told, if the channel is the zone's switched channel. -/
def tellZone (k : Circuit) (tell : Fin 4 → Fin 5 → State → State) (s : State) : State :=
  match k.cfg.zone with
  | none => s
  | some z => if k.cfg.switched then tell k.portal z s else s

/-- A LOST channel that has answered (R133). -/
def recoverChannel (k : Circuit) (s : State) : State :=
  testLine k.portal (enterLevel k (postAll (.channelOk k.portal k.cfg.channel .reply) s))

/-- The event for a driver flag that changed between two replies (R135). -/
def postFlag (k : Circuit) (before after : Bool) (set : FaultReason) (clear : OkReason)
    (s : State) : State :=
  if before = after then s
  else if after then postAll (.channelFault k.portal k.cfg.channel set) s
  else postAll (.channelOk k.portal k.cfg.channel clear) s

/-- The driver status that a STATUS frame gives for a circuit's channel (R131, R180). -/
def StatusFrame.status (f : StatusFrame) (switched : Bool) (time : Nat) : DriverStatus :=
  { level := if switched then (if f.level = 1000 then 1000 else 0) else f.level
    lamp := f.lamp, supply := f.supply, closed := f.closed, time := time }

/-- A reply acts on the channel on the line that the transaction is addressed to (R131). Where LAMP
and SUPPLY both change, the record of LAMP stands before that of SUPPLY: a DESIGN CHOICE (log 44). -/
def replyActs (k : Circuit) (t : Station) (f : StatusFrame) (s : State) : State :=
  let l := s.lampLine k.portal
  let waiting := l.waits k.addr
  let lost := t.misses == 3
  let t1 : Station :=
    { t with misses := 0, status := some (f.status k.cfg.switched s.tenths) }
  let stored := s.setLine k.portal { l with stations := wr l.stations k.addr (some t1) }
  let recovered := if lost then recoverChannel k stored else stored
  let lampTold := postFlag k (t.status.any DriverStatus.lamp) f.lamp .lamp .lamp recovered
  let told := postFlag k (t.status.any DriverStatus.supply) f.supply .supply .supply lampTold
  if lost || waiting then told
  else tellZone k (if f.closed then confirmation else boostLost) told

/-- A miss acts on the channel on the line that the transaction is addressed to (R132). -/
def missActs (k : Circuit) (t : Station) (isLevel : Bool) (s : State) : State :=
  if t.misses = 3 then s
  else
    let l := s.lampLine k.portal
    let t1 : Station := { t with misses := t.misses + 1 }
    let counted := s.setLine k.portal { l with stations := wr l.stations k.addr (some t1) }
    if t1.misses = 3 then
      testLine k.portal
        (tellZone k boostLost (postAll (.channelFault k.portal k.cfg.channel .lost) counted))
    else if isLevel && !l.waits k.addr then enterLevel k counted
    else counted

/-- The channel on the line that a transaction belongs to: its circuit and its station (R139). -/
def State.txTarget (s : State) (n : Fin 4) (x : Transaction) : Option (Circuit × Station) :=
  match (s.set n).circuit n x.addr, rd (s.lampLine n).stations x.addr with
  | some k, some t =>
    if x.channel = some k.cfg.channel ∧ t.channel = k.cfg.channel then some (k, t) else none
  | _, _ => none

/-- Whether a departed record is the one of channel `c` at address `a`. -/
def Departed.names (d : Departed) (a : Fin 16) (c : Fin 32) : Bool := d.addr == a && d.channel == c

/-- A replaced channel whose farewell has completed takes up its new address (R138). -/
def takeUpAddress (n : Fin 4) (c : Fin 32) (s : State) : State :=
  match (s.set n).find n c with
  | none => s
  | some k =>
    let l := s.lampLine n
    let arrived := s.setChannel c { s.channel c with farewell := none }
    enterLevel k (arrived.setLine n (l.station k.addr c l.down))

/-- A channel that has left and has joined no portal since becomes unassigned (R14, R138, log 28). -/
def unassignIfGone (c : Fin 32) (s : State) : State :=
  if s.assignment c = none then s.setChannel c Channel.unassigned else s

/-- What a channel that waits for its farewell at an address was at the adoption that made it: replaced,
or one that left. -/
def LampLine.wasReplaced (l : LampLine) (a : Fin 16) (c : Fin 32) : Bool :=
  (l.departed.reverse.find? fun d => d.names a c).any Departed.replaced

/-- Whether a newer farewell of a channel at an address entered while an earlier one was being sent. -/
def LampLine.departsAgain (l : LampLine) (a : Fin 16) (c : Fin 32) : Bool :=
  l.departed.any fun d => d.names a c && d.later

/-- What a line still keeps once the farewell of channel `c` at address `a` that was being sent has
ended: what it held for that departing channel there is dropped, and a newer farewell remains (R138). -/
def LampLine.dropDeparted (l : LampLine) (a : Fin 16) (c : Fin 32) : LampLine :=
  let remains (d : Departed) : Bool := !d.names a c || d.later
  let next (d : Departed) : Departed := if d.names a c then { d with later := false } else d
  { l with departed := (l.departed.filter remains).map next }

/-- A farewell completes (R138): what the line held for the departing channel there is dropped. If the
channel waits for this farewell, it takes up its new address if it was replaced, and becomes unassigned
if it left. A channel that has joined a portal since waits for none; one that has left or been replaced
again since waits for the newest farewell, at another address or a newer one at this: a DESIGN CHOICE
(logs 18, 28). -/
def completeFarewell (n : Fin 4) (a : Fin 16) (c : Fin 32) (s : State) : State :=
  let l := s.lampLine n
  let dropped := s.setLine n (l.dropDeparted a c)
  if (s.channel c).farewell = some (n, a) ∧ l.departsAgain a c = false then
    if l.wasReplaced a c then takeUpAddress n c dropped else unassignIfGone c dropped
  else dropped

/-- The end of a transaction: the line is free, what the end does to the channel it belongs to, and
the farewell that its frame carried. Where the entry had both an owner and a departing channel, the reply or
the miss acts on the owner first (at a miss its retry joins the tail of the update set, and a third miss
tests the line condition), and then the farewell completes (a replaced channel's level enters, under the
line condition as it is then): R138 gives no order, and this one is a DESIGN CHOICE (logs 13, 51). -/
def endTransaction (n : Fin 4) (x : Transaction) (act : Circuit → Station → State → State)
    (s : State) : State :=
  let free := s.setLine n { s.lampLine n with tx := none }
  let acted :=
    match free.txTarget n x with
    | none => free
    | some (k, t) => act k t free
  match x.departing with
  | none => acted
  | some c => completeFarewell n x.addr c acted

/-- FRAME_SENT (R128): the reply window opens. -/
def execFrameSent (n : Fin 4) (s : State) : Host.Outcome State Fault Refusal :=
  let l := s.lampLine n
  match l.tx with
  | none => .next s
  | some x =>
    match x.phase with
    | .sending _ =>
      .next (s.setLine n { l with tx := some { x with phase := .window (s.now + replyWindowMs) false } })
    | .window _ _ => .next s

/-- A STATUS frame arrives (R128, R131): outside a window, or with another address, it is discarded. -/
def takeReply (n : Fin 4) (f : StatusFrame) (s : State) : State :=
  match (s.lampLine n).tx with
  | none => s
  | some x =>
    match x.phase with
    | .sending _ => s
    | .window expiry _ =>
      if f.addr = x.addr ∧ s.now ≤ expiry then
        beginTransactions (endTransaction n x (fun k t => replyActs k t f) s)
      else s

/-- Whether the next byte that a line receives is the first after the part's own frame (R180). -/
def LampLine.awaitsFirst (l : LampLine) : Bool :=
  l.tx.any fun x =>
    match x.phase with
    | .sending _ => false
    | .window _ heard => !heard

/-- A byte has been received in a line's reply window. -/
def hear (n : Fin 4) (s : State) : State :=
  match (s.lampLine n).tx with
  | none => s
  | some x =>
    match x.phase with
    | .sending _ => s
    | .window expiry _ =>
      s.setLine n { s.lampLine n with tx := some { x with phase := .window expiry true } }

/-- STATUS_REPLY (R128, R131, R180): an undamaged frame arrives, at the moment of its last byte. -/
def execStatusReply (n : Fin 4) (burst : Burst) (s : State) : Host.Outcome State Fault Refusal :=
  let heard := if burst.bytes = [] then s else hear n s
  match (burst.frame (s.lampLine n).awaitsFirst).bind statusFrameOf with
  | none => .next heard
  | some f => .next (takeReply n f heard)

/-- REPLY_WINDOW_EXPIRY (R128, R132). -/
def execReplyWindowExpiry (n : Fin 4) (s : State) : Host.Outcome State Fault Refusal :=
  match (s.lampLine n).tx with
  | none => .next s
  | some x =>
    match x.phase with
    | .sending _ => .next s
    | .window expiry _ =>
      if expiry ≤ s.now then
        done (endTransaction n x (fun k t => missActs k t x.level.isSome) s)
      else .next s

end Sys2Proof.Machine
end

