-- ==== Sys2Proof/Machine/Adoption.lean ====
section
/-! DEFINITION. Adoption (R165): what each block does with a new active set, in the order that R58 and
R165 give. -/

namespace Sys2Proof.Machine

/-! ### The adoption point -/

/-- Whether a zone does not hold its portal's adoption back: it is absent, STEADY or HELD. -/
def settledZone (zone : Option Zone) : Bool :=
  zone.all fun zn => zn.state == .steady || zn.state == .held

/-- The adoption point (R165). -/
def State.adoptionPoint (s : State) (p : Fin 4) : Bool :=
  s.baseOf p == .unconfigured || allZones.all fun z => settledZone (s.zone p z)

/-! ### Base state, meters and evaluator (R2, R19, R28, R31) -/

/-- The base state after the adoption of a set (R2). -/
def BaseState.adopt (b : BaseState) (enabled : Bool) : BaseState :=
  if !enabled then .unconfigured else if b = .unconfigured then .starting else b

/-- The stale deadline of a kept VALID or STARTING meter under a new Tstale (R19). -/
def Meter.rebind (x : Meter) (tStale : Nat) : Meter :=
  match x.state, x.ring.getLast? with
  | .starting, some r | .valid, some r =>
    { x with staleDeadline := some (r.arrival + 10 * tStale) }
  | _, _ => x

/-- The binding change of one meter (R19). -/
def adoptMeter (p : Fin 4) (old new : PortalRecord) (m : Fin 8) (s : State) : State :=
  let x := s.meter m
  if new.binds m then
    if old.binds m then
      let kept := x.rebind new.tStale
      let s1 := s.setMeter m kept
      if s1.passed kept.staleDeadline then changeMeter m p .timeout kept.expire s1 else s1
    else changeMeter m p .bound x.restart s
  else if old.binds m then changeMeter m p .unbound Meter.unused s
  else s

/-- The Portal Evaluator's part before its evaluation: a portal that enters STARTING or UNCONFIGURED
has no source (R27, R30, R31); a changed binding stops the mismatch timer (R33); LIVE without a VALID
meter becomes HOLD or LOST, and a hold that is past its new expiry LOST (R28). `best` is the largest
estimate that was VALID before the adoption, which is the value held: where two VALID meters leave VALID at
the one adoption, a DESIGN CHOICE (log 52). -/
def adoptSource (p : Fin 4) (base : BaseState) (old : PortalRecord) (best : Nat) (s : State) :
    State :=
  let new := s.record p
  let e0 := s.eval p
  let e1 : Evaluator :=
    if old.slot0 = new.slot0 ∧ old.slot1 = new.slot1 then e0
    else { e0 with mismatchSince := none, mismatchReported := false }
  let e2 : Evaluator :=
    if s.baseOf p ≠ base ∧ s.baseOf p ≠ .running then
      { e1 with source := .none, luminance := 0, demand := 0, holdSince := none }
    else if s.validEstimates p = [] then e1.loseMeters best new.tHold s.now
    else e1
  let s1 := s.setEval p e2
  if e2.source = .hold ∧ s1.due (s1.holdEnd p) then s1.setEval p e2.lose else s1

/-! ### Stage Selector and Claim Arbiter (R58, R82) -/

/-- The one selection of R58. -/
def adoptSelection (p : Fin 4) (s : State) : State :=
  let e := s.eval p
  if s.baseOf p = .running ∧ e.status ≠ .lost then
    setStage p ((s.set p).initialStage e.demand) (follow p true (some e.demand) s)
  else setStage p (s.set p).top (follow p false none s)

/-- A FREEZE copy's captured stage is rewritten to the new top stage if it lies above it (R82). -/
def Claim.rewrite (c : Claim) (top : Nat) : Claim :=
  if c.kind = .freeze then { c with captured := c.captured.map fun n => min n top } else c

/-- FREEZE captured stages are rewritten (R82). -/
def rewriteFreezes (p : Fin 4) (s : State) : State :=
  let a := s.arbiter p
  s.setArbiter p { a with claims := a.claims.map fun c => c.rewrite a.top }

/-! ### Channels and the lamp line (R13, R137) -/

/-- Whether two circuits of one channel are the same driver: address and type (R13). -/
def Circuit.sameDriver (a b : Circuit) : Bool :=
  a.addr == b.addr && a.cfg.switched == b.cfg.switched

/-- A hand channel is released for an adoption, its seat told (R13, R102). -/
def releaseForAdoption (k : Circuit) (s : State) : State :=
  let ch := s.channel k.cfg.channel
  match ch.hand with
  | none => s
  | some h =>
    postTo h.seat (.handReleased k.portal k.cfg.channel .adoption)
      (s.setChannel k.cfg.channel { ch with hand := none })

/-- The leaving side of a channel that leaves or is replaced: HAND is released and its farewell enters,
for which the channel waits from now on. It keeps its commanded level and its target until that farewell
completes (R13, R137, R138, log 28). -/
def leaveChannel (k : Circuit) (replaced : Bool) (s : State) : State :=
  let c := k.cfg.channel
  let freed := releaseForAdoption k s
  let waiting := freed.setChannel c { freed.channel c with farewell := some (k.portal, k.addr) }
  waiting.setLine k.portal ((waiting.lampLine k.portal).leave k.addr c replaced)

/-- The first pass of R137, for one circuit of the old set. -/
def leavePass (new : PortalSet) (k : Circuit) (s : State) : State :=
  match new.find k.portal k.cfg.channel with
  | none => leaveChannel k false s
  | some j => if k.sameDriver j then s else leaveChannel k true s

/-- A channel assigned in AUTO at level 0 or OFF (R13). Its target of 0 stands until its zone gives it
one, which a HELD zone does at the end of the trip only: a DESIGN CHOICE (log 33). -/
def Channel.joined : Channel :=
  { hand := none, level := some 0, target := some 0, farewell := none }

/-- A kept channel under its new record (R13, R106). -/
def keepChannel (k : Circuit) (s : State) : State :=
  let ch := s.channel k.cfg.channel
  let kept := s.setChannel k.cfg.channel
    { ch with hand := ch.hand.map fun h => { h with level := k.cfg.raised h.level } }
  if s.tripped k.portal then kept
  else
    match ch.level with
    | none => kept
    | some level => command k level kept

/-- The second pass of R137, for one circuit of the new set; `down` is the line condition held before
the adoption. A channel that joins waits for no farewell; a replaced one still waits for that of its old
address (R137, R138). A moved channel keeps the target of its old zone until its new zone gives it one (log
33). -/
def joinPass (old : PortalSet) (down : Bool) (k : Circuit) (s : State) : State :=
  let c := k.cfg.channel
  match old.find k.portal c with
  | none =>
    let joined := s.setChannel c Channel.joined
    let l := (joined.lampLine k.portal).station k.addr c down
    joined.setLine k.portal (l.enter k.addr 0 c)
  | some j =>
    if !k.sameDriver j then
      s.setChannel c { Channel.joined with farewell := (s.channel c).farewell }
    else if j.cfg.zone = k.cfg.zone then keepChannel k s
    else releaseForAdoption k s

/-- What Channel Output commands a channel of the new set at, beside its zone: the fail level while
the portal is TRIPPED (R13), 0 or OFF for zone NONE (R7). -/
def settlePass (k : Circuit) (s : State) : State :=
  let targeted := if k.cfg.zone = none then driveSwitched k (giveTarget k 0 s) else s
  if s.tripped k.portal then command k k.cfg.failLevel targeted else targeted

/-- The channel cases of R13 and R137, and the test of the line condition after them. Where several
channels release HAND to one seat, their HAND_RELEASED records stand in this order: those of channels that
leave or are replaced, by ascending old driver address, then those of moved channels, by ascending new
one: a DESIGN CHOICE (log 41). -/
def adoptChannels (p : Fin 4) (old : PortalSet) (s : State) : State :=
  let down := (s.lampLine p).down
  let left := forEach (old.circuits p) (leavePass (s.set p)) s
  let joined := forEach (s.circuits p) (joinPass old down) left
  testLineOnly p (forEach (s.circuits p) settlePass joined)

/-! ### Zones (R5, R98) -/

/-- Whether a zone's switched channel is kept across an adoption in the sense of R13. -/
def keptSwitched (old new : PortalSet) (p : Fin 4) (z : Fin 5) : Bool :=
  match old.switchedOf p z, new.switchedOf p z with
  | some a, some b => a.cfg.channel == b.cfg.channel && a.sameDriver b
  | _, _ => false

/-- The switched target that a zone takes from the commanded level of its switched channel. -/
def State.switchedLevel (s : State) (p : Fin 4) (z : Fin 5) : Bool :=
  match (s.set p).switchedOf p z with
  | none => false
  | some k => (s.channel k.cfg.channel).level.getD 0 != 0

/-- A zone that has just become present (R5). -/
def Zone.fresh (target : Nat) (switched held : Bool) : Zone :=
  { state := if held then .held else .steady
    working := target, latest := none, switched := switched, confirmed := false,
    overlap := none, confirm := none, degraded := false }

/-- Whether the portal will carry the overlay after the Trip Unit has acted on the adoption. -/
def State.tripsNext (s : State) (p : Fin 4) : Bool :=
  s.baseOf p != .unconfigured && (s.fireLatches p || s.sourcesOf p != TripSet.empty)

/-- The Zone Sequencer of one zone takes its channels, B, D and target from the new set. -/
def adoptZone (p : Fin 4) (old : PortalSet) (z : Fin 5) (s : State) : State :=
  if rd (s.record p).zones z then
    let target := s.zoneLevel p z
    match s.zone p z with
    | none =>
      let held := s.tripped p || s.tripsNext p
      let zn := Zone.fresh target (s.switchedLevel p z) held
      if held then s.setZone p z (some zn) else plan p z zn s
    | some zn =>
      let kept := keptSwitched old (s.set p) p z
      let taken : Zone :=
        { zn with
          working := target, confirm := none, degraded := false
          confirmed := kept && zn.confirmed
          switched := if kept then zn.switched else s.switchedLevel p z }
      if zn.state = .held then s.setZone p z (some taken)
      else plan p z { taken with latest := none } s
  else s.setZone p z none

/-! ### Trip Unit (R118) -/

/-- The Trip Unit's cases at an adoption, before it recomputes. -/
def adoptTrip (p : Fin 4) (old : PortalRecord) (s : State) : State :=
  let u := s.tripUnit p
  let level := s.fireRead p
  let reread :=
    if old.activeLow ≠ (s.record p).activeLow ∧ level ≠ u.fireLevel then
      s.setTrip p (u.change level s.now)
    else s
  if s.baseOf p = .unconfigured then
    reread.setTrip p { reread.tripUnit p with fireLatch := none, orderLatch := none }
  else latchFire p reread

/-! ### The adoption -/

/-- A LOCKED shadow is replaced by a fresh EDITABLE copy of the new active set (R165). -/
def refreshShadow (p : Fin 4) (s : State) : State :=
  let e := s.edit p
  if e.shadow.any Shadow.locked then
    s.setEdit p { e with shadow := some { set := (s.set p).trimmed, locked := false } }
  else s

/-- The pending set becomes the active set, and the base state changes. -/
def activate (p : Fin 4) (new : PortalSet) (s : State) : State :=
  let active := s.setActive p new
  let edited := active.setEdit p { active.edit p with pendingSet := none }
  edited.setBase p ((s.baseOf p).adopt new.record.enabled)

/-- The adoption of a pending set (R165). Where it changes several meters, their METER_STATE records
stand in ascending order of meter number: a DESIGN CHOICE (log 34). Where two VALID meters of the portal
leave VALID at this one adoption (both unbound, or one unbound and one STALE under the new Tstale), a HOLD
that begins here holds the larger of their two estimates as they stood before the adoption: a DESIGN CHOICE
(log 52). Its zones act in ascending order,
after the channels: a DESIGN CHOICE (log 51). -/
def adopt (p : Fin 4) (pending : PendingSet) (s : State) : State :=
  let old := s.set p
  let activated := activate p pending.set s
  let bound := forEach allMeters (adoptMeter p old.record pending.set.record) activated
  let sourced := adoptSource p (s.baseOf p) old.record (s.bestEstimate p) bound
  let selected := adoptSelection p (evaluateOnly p sourced)
  let resolved := resolveStage p (rewriteFreezes p selected)
  let lit := forEach allZones (adoptZone p old) (adoptChannels p old resolved)
  let tripped := recompute p (adoptTrip p old.record lit)
  refreshShadow p (postAll (.adopted p pending.seat) tripped)

/-- A portal that holds a pending set and is at its adoption point adopts it. -/
def adoptIfReady (p : Fin 4) (s : State) : State :=
  match (s.edit p).pendingSet with
  | none => s
  | some pending => if s.adoptionPoint p then adopt p pending s else s

/-- ADOPTION. -/
def execAdoption (p : Fin 4) (s : State) : Host.Outcome State Fault Refusal :=
  done (adoptIfReady p s)

end Sys2Proof.Machine
end

