-- ==== Sys2Proof/Machine/Store.lean ====
section
/-! DEFINITION. The Set Store's commands (chapter 9): grants, WRITE, COMMIT with its validation,
DISCARD, STORE and the end of a store write. -/

namespace Sys2Proof.Machine

/-! ### Grants (R158 to R161) -/

/-- A seat becomes a portal's grant holder, with an EDITABLE copy of the active set (R158). -/
def giveGrant (seat : Seat) (p : Fin 4) (s : State) : State :=
  s.setEdit p
    { s.edit p with holder := some seat, shadow := some { set := (s.set p).trimmed, locked := false } }

/-- A grant ends, and its shadow is dropped. A pending set stays (R161). -/
def endGrant (p : Fin 4) (s : State) : State :=
  s.setEdit p { s.edit p with holder := none, shadow := none }

/-- Whether a seat other than the one given holds a portal's grant. -/
def State.heldByOther (s : State) (seat : Seat) (p : Fin 4) : Bool :=
  (s.edit p).holder.any fun x => x != seat

/-- Whether a seat holds a portal's grant. -/
def State.holdsGrant (s : State) (seat : Seat) (p : Fin 4) : Bool := (s.edit p).holder == some seat

/-- Whether a portal's grant is free. -/
def State.grantFree (s : State) (p : Fin 4) : Bool := (s.edit p).holder == none

/-- The checks and the effect of TAKE_GRANT (R159). -/
def takeGrantCommand (seat : Seat) (h : Header) (s : State) : State :=
  if h.portals = [] then refuse seat .badValue 0 s
  else
    match h.portals.find? (s.heldByOther seat) with
    | some p => refuse seat .held p.val s
    | none =>
      let free := h.portals.filter s.grantFree
      accept seat (maskOf free) false false false (forEach free (giveGrant seat) s)

/-- TAKE_GRANT. -/
def execTakeGrant (seat : Seat) (h : Header) (s : State) : Host.Outcome State Fault Refusal :=
  .next (inHeader seat s (takeGrantCommand seat h))

/-- SEIZE_GRANT on one portal (R160). -/
def seize (p : Fin 4) (s : State) : State :=
  match (s.edit p).holder with
  | none => giveGrant .L p s
  | some .L => s
  | some x => postTo x (.grantLost p false) (giveGrant .L p s)

/-- The checks and the effect of SEIZE_GRANT (R143, R160). The former holders are told in ascending order
of portal number: a DESIGN CHOICE (log 38). -/
def seizeGrantCommand (seat : Seat) (h : Header) (s : State) : State :=
  if seat ≠ .L then refuse seat .seatDenied 0 s
  else if h.portals = [] then refuse seat .badValue 0 s
  else
    let taken := h.portals.filter (s.heldByOther .L)
    accept seat (maskOf taken) false false false (forEach h.portals seize s)

/-- SEIZE_GRANT. -/
def execSeizeGrant (seat : Seat) (h : Header) (s : State) : Host.Outcome State Fault Refusal :=
  .next (inHeader seat s (seizeGrantCommand seat h))

/-- The checks and the effect of RELEASE_GRANT (R161). -/
def releaseGrantCommand (seat : Seat) (h : Header) (s : State) : State :=
  if h.portals = [] then refuse seat .badValue 0 s
  else
    match h.portals.find? fun p => !s.holdsGrant seat p with
    | some p => refuse seat .notHolder p.val s
    | none => accept seat 0 false false false (forEach h.portals endGrant s)

/-- RELEASE_GRANT. -/
def execReleaseGrant (seat : Seat) (h : Header) (s : State) : Host.Outcome State Fault Refusal :=
  .next (inHeader seat s (releaseGrantCommand seat h))

/-- The end of a silent seat's grants (R161). -/
def silenceGrants (seat : Seat) (s : State) : State :=
  forEach allPortals
    (fun p s => if s.holdsGrant seat p then postTo seat (.grantLost p true) (endGrant p s) else s) s

/-! ### WRITE (R147, R162) -/

/-- The header checks of R143 that READ and WRITE share, with the index range given: the first
transfer, or the code of the refusal. -/
def transferOf (h : Header) (range : Nat) : Except ResultCode Transfer :=
  match h.stepping with
  | none => .error .badValue
  | some stepping =>
    if h.records = 0 then .error .badValue
    else if range ≤ h.index then .error .badIndex
    else
      .ok { cls := h.cls, owner := h.owner, index := h.index, stepping := stepping,
            left := h.records, done := 0 }

/-- The header checks of a WRITE (R143). -/
def writeTransfer (h : Header) : Except ResultCode Transfer :=
  if classExists h.cls h.owner && classWritable h.cls then transferOf h (shadowRange h.cls)
  else .error .badObject

/-- The portal whose shadow a record of a WRITE changes (R158, R177). -/
def Transfer.portal (t : Transfer) : Fin 4 :=
  portalOf (if t.cls = 16 ∨ t.cls = 17 then t.index else t.owner)

/-- A shadow set with one record replaced; `none` if a field lies outside its range (R162). -/
def PortalSet.writeRecord (x : PortalSet) (t : Transfer) (bytes : List Byte) : Option PortalSet :=
  match t.cls with
  | 16 => (portalRecordOf bytes).map fun r => { x with record := r }
  | 17 => (stageCountOf bytes).map fun n => { x with stageCount := n }
  | 18 =>
    if hi : t.index < 12 then
      (stageRowOf bytes).map fun r => { x with rows := wr x.rows ⟨t.index, hi⟩ r }
    else none
  | _ =>
    if hi : t.index < 16 then
      (channelSlotOf bytes).map fun r => { x with slots := wr x.slots ⟨t.index, hi⟩ r }
    else none

/-- One complete record at the Set Store: the new state, or the code of its refusal (R162). -/
def applyRecord (seat : Seat) (t : Transfer) (bytes : List Byte) (s : State) :
    Except ResultCode State :=
  let p := t.portal
  let e := s.edit p
  match e.shadow with
  | none => .error .notHolder
  | some shadow =>
    if e.holder ≠ some seat then .error .notHolder
    else if shadow.locked then .error .locked
    else
      match shadow.set.writeRecord t bytes with
      | none => .error .badValue
      | some x => .ok (s.setEdit p { e with shadow := some { shadow with set := x } })

/-- The end of a WRITE (R162). -/
def endWrite (seat : Seat) (code : ResultCode) (accepted : Nat) (s : State) : State :=
  endCommand seat code accepted
    { a := code == .ok, c := decide (0 < accepted), l := (s.port seat).condition.l, p := false } s

/-- One record of a WRITE acts (R146, R147). -/
def writeOne (seat : Seat) (t : Transfer) (bytes : List Byte) (s : State) : State :=
  if bytes.length = shadowRecordBytes t.cls then
    match applyRecord seat t bytes s with
    | .error code => endWrite seat code t.done s
    | .ok after =>
      if t.left ≤ 1 then endWrite seat .ok (t.done + 1) after
      else
        match t.stepping.next t.index with
        | none => endWrite seat .badIndex (t.done + 1) after
        | some i =>
          if i < shadowRange t.cls then
            after.setPort seat
              { after.port seat with
                phase := .writing { t with index := i, left := t.left - 1, done := t.done + 1 }
                out := [] }
          else endWrite seat .badIndex (t.done + 1) after
  else s

/-- The header and the first record of a WRITE. -/
def writeCommand (seat : Seat) (h : Header) (bytes : List Byte) (s : State) : State :=
  match writeTransfer h with
  | .error code => refuse seat code 0 s
  | .ok t => writeOne seat t bytes s

/-- WRITE. -/
def execWrite (seat : Seat) (h : Header) (bytes : List Byte) (s : State) :
    Host.Outcome State Fault Refusal :=
  .next (inHeader seat s (writeCommand seat h bytes))

/-- WRITE_RECORD: a later record of a WRITE in progress (R147). -/
def execWriteRecord (seat : Seat) (bytes : List Byte) (s : State) :
    Host.Outcome State Fault Refusal :=
  match (s.port seat).phase with
  | .writing t => .next (writeOne seat t bytes s)
  | _ => .next s

/-! ### Validation (R10, R12, R43, R44, R163) -/

/-- The first of some things that fails a test, by its index. -/
def firstBad {α : Type} (l : List α) (bad : α → Bool) (index : α → Nat) : Option Nat :=
  (l.find? bad).map index

/-- A check that can fail at one index only. -/
def failsAt (bad : Bool) (index : Nat) : Option Nat := if bad then some index else none

/-- The stage numbers of a table from `low` up. -/
def PortalSet.stages (x : PortalSet) (low : Nat) : List Nat :=
  (List.range x.stageCount).filter fun i => decide (low ≤ i)

/-- Whether two thresholds, both present, stand in the order `b ≤ a`. -/
def thresholdsAtLeast (a b : Option Nat) : Bool :=
  match a, b with
  | some m, some n => decide (n ≤ m)
  | _, _ => false

/-- Checks 1 to 5 (R10). -/
def recordChecks (r : PortalRecord) : List (Nat × Option Nat) :=
  let present (z : Fin 5) : Bool := rd r.zones z
  [ (1, failsAt (r.enabled && !present 0) 0),
    (2, firstBad allZones (fun z => !r.enabled && present z) Fin.val),
    (3, if r.enabled then none
        else if r.slot0.isSome then some 0
        else if r.slot1.isSome then some 1
        else none),
    (4, failsAt (r.slot0.isSome && r.slot0 == r.slot1) 1),
    (5, firstBad allZones (fun z => !present z && rd r.boost z != 0) Fin.val) ]

/-- Checks 20 to 24 (R43). -/
def thresholdChecks (x : PortalSet) : List (Nat × Option Nat) :=
  [ (20, failsAt ((x.row 0).rise.isSome || (x.row 0).fall.isSome) 0),
    (21, firstBad (x.stages 1) (fun i => (x.row i).rise.isNone || (x.row i).fall.isNone) id),
    (22, firstBad (x.stages 1) (fun i => thresholdsAtLeast (x.row i).fall (x.row i).rise) id),
    (23, firstBad (x.stages 2) (fun i => thresholdsAtLeast (x.row (i - 1)).rise (x.row i).rise) id),
    (24, firstBad (x.stages 2) (fun i => thresholdsAtLeast (x.row (i - 1)).fall (x.row i).fall) id) ]

/-- Checks 25 to 34 (R44). -/
def levelChecks (x : PortalSet) : List (Nat × Option Nat) :=
  let present (z : Fin 5) : Bool := rd x.record.zones z
  let level (i : Nat) (z : Fin 5) : Nat := rd (x.row i).levels z
  (allZones.map fun z =>
    (25 + z.val, firstBad (x.stages 0) (fun i => !present z && level i z != 0) id)) ++
  (allZones.map fun z =>
    (30 + z.val,
      firstBad (x.stages 1) (fun i => present z && decide (level i z < level (i - 1) z)) id))

/-- Whether another circuit at a lower address has a property shared with a circuit. -/
def lowerTwin (l : List Circuit) (same : Circuit → Circuit → Bool) (k : Circuit) : Bool :=
  l.any fun j => decide (j.addr < k.addr) && same j k

/-- Checks 41 to 47 (R12). -/
def channelChecks (x : PortalSet) (p : Fin 4) : List (Nat × Option Nat) :=
  let l := x.circuits p
  let present (z : Fin 5) : Bool := rd x.record.zones z
  let boost (z : Fin 5) : Nat := rd x.record.boost z
  let addr (k : Circuit) : Nat := k.addr.val
  let dimmedIn (z : Fin 5) (k : Circuit) : Bool := k.cfg.zone == some z && !k.cfg.switched
  let switchedIn (z : Fin 5) (k : Circuit) : Bool := k.cfg.zone == some z && k.cfg.switched
  [ (41, firstBad l (fun _ => !x.record.enabled) addr),
    (42, firstBad l (fun k => k.cfg.zone.any fun z => !present z) addr),
    (43, firstBad l (lowerTwin l fun j k => j.cfg.channel == k.cfg.channel) addr),
    (44, firstBad allZones (fun z => present z && !l.any (dimmedIn z)) Fin.val),
    (45, firstBad allZones (fun z => present z && boost z != 0 && !l.any (switchedIn z)) Fin.val),
    (46, firstBad l (fun k => k.cfg.switched && k.cfg.zone.any fun z => boost z == 0) addr),
    (47, firstBad l
          (lowerTwin l fun j k =>
            j.cfg.switched && k.cfg.switched && k.cfg.zone.isSome && j.cfg.zone == k.cfg.zone) addr) ]

/-- Whether a set holds a channel. -/
def PortalSet.names (x : PortalSet) (c : Fin 32) : Bool := (x.find 0 c).isSome

/-- The active and pending sets of the portals other than `p`. -/
def State.otherSets (s : State) (p : Fin 4) : List PortalSet :=
  (allPortals.filter fun q => q != p).flatMap fun q =>
    s.set q :: (((s.edit q).pendingSet.map PendingSet.set).toList)

/-- The shadows of the lower-numbered portals among those named. -/
def State.lowerShadows (s : State) (named : List (Fin 4)) (p : Fin 4) : List PortalSet :=
  (named.filter fun q => decide (q < p)).filterMap fun q => ((s.edit q).shadow).map Shadow.set

/-- The meter binding slots of a record that name a meter bound by one of some sets. -/
def boundElsewhere (r : PortalRecord) (others : List PortalSet) : Option Nat :=
  let taken (slot : Option (Fin 8)) : Bool :=
    slot.any fun m => others.any fun y => y.record.binds m
  if taken r.slot0 then some 0 else if taken r.slot1 then some 1 else none

/-- Checks 60 to 63 (R163). -/
def portalChecks (x : PortalSet) (p : Fin 4) (others lower : List PortalSet) :
    List (Nat × Option Nat) :=
  let l := x.circuits p
  let heldBy (sets : List PortalSet) (k : Circuit) : Bool := sets.any fun y => y.names k.cfg.channel
  let addr (k : Circuit) : Nat := k.addr.val
  [ (60, firstBad l (heldBy others) addr),
    (61, firstBad l (heldBy lower) addr),
    (62, boundElsewhere x.record others),
    (63, boundElsewhere x.record lower) ]

/-- Every check on one set, in ascending order of check number. -/
def allChecks (x : PortalSet) (p : Fin 4) (others lower : List PortalSet) :
    List (Nat × Option Nat) :=
  recordChecks x.record ++ thresholdChecks x ++ levelChecks x ++ channelChecks x p ++
    portalChecks x p others lower

/-- The first check that a set fails, with the index it reports. -/
def firstFailure (x : PortalSet) (p : Fin 4) (others lower : List PortalSet) : Option (Nat × Nat) :=
  (allChecks x p others lower).findSome? fun c => c.2.map fun i => (c.1, i)

/-- The result value of INVALID (R177). -/
def invalidValue (p : Fin 4) (failure : Nat × Nat) : Nat :=
  p.val * 16384 + failure.1 * 256 + failure.2

/-- The result value of the first validation failure of the named portals' shadows (R163). -/
def State.validation (s : State) (named : List (Fin 4)) : Option Nat :=
  named.findSome? fun p =>
    match (s.edit p).shadow with
    | none => none
    | some x =>
      (firstFailure x.set p (s.otherSets p) (s.lowerShadows named p)).map (invalidValue p)

/-! ### COMMIT and DISCARD (R163, R164, R166) -/

/-- A pending set is made of a portal's shadow, which becomes LOCKED (R164). Its row slots at or above its
stage count hold empty rows, which a READ of them delivers: a DESIGN CHOICE (log 36). -/
def makePending (seat : Seat) (p : Fin 4) (s : State) : State :=
  let e := s.edit p
  match e.shadow with
  | none => s
  | some x =>
    s.setEdit p
      { e with
        shadow := some { x with locked := true }
        pendingSet := some { set := x.set.trimmed, seat := seat, time := s.tenths } }

/-- Whether a portal's shadow is LOCKED. -/
def State.shadowLocked (s : State) (p : Fin 4) : Bool := (s.edit p).shadow.any Shadow.locked

/-- Whether a portal has a pending set. -/
def State.hasPending (s : State) (p : Fin 4) : Bool := (s.edit p).pendingSet.isSome

/-- A COMMIT is refused; P is set if a named portal holds a pending set then (R164, log 37). -/
def refuseCommit (seat : Seat) (h : Header) (code : ResultCode) (value : Nat) (s : State) : State :=
  refuseDeferred seat code value (h.portals.any s.hasPending) s

/-- The checks and the effect of COMMIT. -/
def commitCommand (seat : Seat) (h : Header) (s : State) : State :=
  if h.portals = [] then refuseCommit seat h .badValue 0 s
  else
    match h.portals.find? fun p => !s.holdsGrant seat p with
    | some p => refuseCommit seat h .notHolder p.val s
    | none =>
      match h.portals.find? s.shadowLocked with
      | some p => refuseCommit seat h .locked p.val s
      | none =>
        match h.portals.find? s.hasPending with
        | some p => refuseCommit seat h .pendingBusy p.val s
        | none =>
          match s.validation h.portals with
          | some value => refuseCommit seat h .invalid value s
          | none =>
            let made := forEach h.portals (makePending seat) s
            let after := forEach h.portals adoptIfReady made
            let adopted := h.portals.filter fun p => !after.hasPending p
            accept seat (maskOf adopted) true false (h.portals.any after.hasPending) after

/-- COMMIT. -/
def execCommit (seat : Seat) (h : Header) (s : State) : Host.Outcome State Fault Refusal :=
  done (inHeader seat s (commitCommand seat h))

/-- A pending set is dropped, and a LOCKED shadow becomes EDITABLE (R166). -/
def discardOne (p : Fin 4) (s : State) : State :=
  let e := s.edit p
  s.setEdit p
    { e with pendingSet := none, shadow := e.shadow.map fun x => { x with locked := false } }

/-- The checks and the effect of DISCARD. -/
def discardCommand (seat : Seat) (h : Header) (s : State) : State :=
  if h.portals = [] then refuse seat .badValue 0 s
  else
    match h.portals.find? fun p => !s.holdsGrant seat p with
    | some p => refuse seat .notHolder p.val s
    | none =>
      let dropped := h.portals.filter s.hasPending
      accept seat (maskOf dropped) (!dropped.isEmpty) false false (forEach h.portals discardOne s)

/-- DISCARD. -/
def execDiscard (seat : Seat) (h : Header) (s : State) : Host.Outcome State Fault Refusal :=
  .next (inHeader seat s (discardCommand seat h))

/-! ### STORE (R167) -/

/-- The checks and the effect of STORE. -/
def storeCommand (seat : Seat) (s : State) : State :=
  if !allPortals.any (s.holdsGrant seat) then refuse seat .notHolder 0 s
  else if s.storing.isSome then refuse seat .storeBusy 0 s
  else
    let write : StoreWrite :=
      { seat := seat, time := s.tenths, snapshot := s.active, latest := s.now + storeWriteMs,
        silenced := false }
    accept seat 0 false false true { s with image := none, storing := some write }

/-- STORE. -/
def execStore (seat : Seat) (s : State) : Host.Outcome State Fault Refusal :=
  .next (inHeader seat s (storeCommand seat))

/-- STORE_WRITE_END (R167, R168). -/
def execStoreWriteEnd (verified : Bool) (s : State) : Host.Outcome State Fault Refusal :=
  match s.storing with
  | none => .next s
  | some w =>
    let ended : State :=
      { s with image := if verified then some w.snapshot else none, storing := none }
    if w.silenced then .next ended
    else .next (postTo w.seat (if verified then .storeDone else .storeFailed) ended)

end Sys2Proof.Machine
end

