-- ==== Sys2Proof/Machine/Objects.lean ====
section
/-! DEFINITION. What a READ delivers (R154, R178, R179): the index range and the record bytes of every
object class. -/

namespace Sys2Proof.Machine

/-! ### Coding (R176) -/

/-- A byte of flags, bit 0 first. -/
def flags (l : List Bool) : Byte :=
  byte (l.foldr (fun b acc => acc * 2 + if b then 1 else 0) 0)

/-- A 16-bit field, 65,535 if absent. -/
def wordOr (v : Option Nat) : List Byte := word (v.getD 65535)

/-- A one-byte field, 255 if absent. -/
def byteOr (v : Option Nat) : Byte := byte (v.getD 255)

/-- A four-byte time, 0 if absent (R179). -/
def longOr (v : Option Nat) : List Byte := long (v.getD 0)

/-- Reserved bytes. -/
def zeros (n : Nat) : List Byte := List.replicate n 0#8

/-- The time remaining on a timer in tenths of a second, rounded down as every time that a seat reads
(log 30); 0 when it is stopped. -/
def State.remaining (s : State) (timer : Option Nat) : Nat :=
  match timer with
  | none => 0
  | some t => (t - s.now) / 100

/-- The time remaining to a deadline that is a stamp; 0 when there is none. -/
def State.untilStamp (s : State) (deadline : Option Nat) : Nat :=
  match deadline with
  | none => 0
  | some t => t - s.tenths

/-- The code of a reset cause. -/
def ResetCause.code : ResetCause → Nat
  | .powerOn => 0
  | .resetLine => 1
  | .restart => 2

/-- The code of a meter state. -/
def MeterState.code : MeterState → Nat
  | .unused => 0
  | .starting => 1
  | .valid => 2
  | .stale => 3
  | .faulted => 4

/-- The code of a source status. -/
def SourceStatus.code : SourceStatus → Nat
  | .none => 0
  | .live => 1
  | .hold => 2
  | .lost => 3
  | .injected => 4

/-- The code of a base state. -/
def BaseState.code : BaseState → Nat
  | .unconfigured => 0
  | .starting => 1
  | .running => 2

/-- The code of a claim kind. -/
def ClaimKind.code : ClaimKind → Nat
  | .force => 0
  | .floor => 1
  | .cap => 2
  | .freeze => 3
  | .inject => 4

/-- The code of a zone state. -/
def ZoneState.code : ZoneState → Nat
  | .steady => 0
  | .ramping => 1
  | .boostOnWait => 2
  | .overlapOn => 3
  | .boostOffPrep => 4
  | .overlapOff => 5
  | .held => 6

/-- The code of a trip source. -/
def TripSource.code : TripSource → Nat
  | .fire => 0
  | .line => 1
  | .order => 2

/-- A set of trip sources as a byte or a value. -/
def TripSet.code (x : TripSet) : Nat := flag x.fire 0 + flag x.line 1 + flag x.order 2

/-- The code of a METER_STATE cause. -/
def MeterCause.code : MeterCause → Nat
  | .bound => 0
  | .unbound => 1
  | .readings => 2
  | .timeout => 3
  | .sensor => 4
  | .range => 5
  | .recovered => 6

/-- The code of a CHANNEL_FAULT reason. -/
def FaultReason.code : FaultReason → Nat
  | .lost => 0
  | .boostUnconfirmed => 1
  | .lamp => 2
  | .supply => 3

/-- The code of a CHANNEL_OK reason. -/
def OkReason.code : OkReason → Nat
  | .reply => 0
  | .boostConfirmed => 1
  | .lamp => 2
  | .supply => 3

/-- The code of a HAND_RELEASED cause. -/
def ReleaseCause.code : ReleaseCause → Nat
  | .released => 0
  | .silence => 1
  | .adoption => 2

/-! ### Set records (R178) -/

/-- The portal record as bytes. -/
def PortalRecord.bytes (r : PortalRecord) : List Byte :=
  [flags [r.enabled, r.activeLow, r.fireArmed, r.lineArmed],
   flags (allZones.map fun z => rd r.zones z),
   byteOr (r.slot0.map Fin.val), byteOr (r.slot1.map Fin.val),
   byte r.k, byte r.window, byte r.tStale, byte r.overlap] ++
  word r.tHold ++ word r.upRate ++ word r.downRate ++
  allZones.flatMap fun z => word (rd r.boost z)

/-- The stage row as bytes. -/
def StageRow.bytes (r : StageRow) : List Byte :=
  wordOr r.rise ++ wordOr r.fall ++ word r.dwell ++ allZones.flatMap fun z => word (rd r.levels z)

/-- The stage table header as bytes. -/
def headerBytes (count : Nat) : List Byte := [byte count, 0]

/-- The channel slot as bytes; an empty slot is all zeros. -/
def slotBytes (slot : Option ChannelRecord) : List Byte :=
  match slot with
  | none => zeros 8
  | some r =>
    [flags [true, r.switched], byte r.channel.val,
     byte ((r.zone.map Fin.val).getD 7), 0] ++ word r.failLevel ++ word r.minLevel

/-- One record of a set by its shadow class code. -/
def PortalSet.bytes (x : PortalSet) (cls index : Nat) : List Byte :=
  match cls with
  | 16 => x.record.bytes
  | 17 => headerBytes x.stageCount
  | 18 => (x.row index).bytes
  | _ => slotBytes (if h : index < 16 then rd x.slots ⟨index, h⟩ else none)

/-- One record of a set that may not exist: marked absent with zeros. -/
def setBytes (x : Option PortalSet) (cls index : Nat) : List Byte :=
  match x with
  | none => zeros (shadowRecordBytes cls)
  | some y => y.bytes cls index

/-! ### Event records (R178) -/

/-- The fields of an event record beside its kind, number and time: reason, portal, subject type,
subject and values. -/
structure EventFields where
  reason : Option Nat
  portal : Option (Fin 4)
  subjectType : Nat
  subject : Nat
  values : List Nat
  deriving DecidableEq, Repr

/-- The fields of each kind, by the catalogue of section 10.2. -/
def Event.fields : Event → EventFields
  | .restarted c => ⟨some c.code, none, 0, 0, []⟩
  | .storeInvalid => ⟨none, none, 0, 0, []⟩
  | .overflow k => ⟨some k, none, 0, 0, []⟩
  | .meterFlags m w h => ⟨none, none, 1, m.val, [flag w 0, flag h 0]⟩
  | .meterState p m c left new => ⟨some c.code, some p, 1, m.val, [left.code, new.code]⟩
  | .sourceChanged p x => ⟨none, some p, 0, 0, [x.code]⟩
  | .mismatch p a x b y => ⟨none, some p, 0, 0, [a.val, x, b.val, y]⟩
  | .stageChanged p a b c => ⟨none, some p, 0, 0, [a, b, c]⟩
  | .channelFault p c r => ⟨some r.code, some p, 2, c.val, []⟩
  | .channelOk p c r => ⟨some r.code, some p, 2, c.val, []⟩
  | .lineState n down => ⟨none, some n, 3, n.val, [flag down 0]⟩
  | .fireInput p on => ⟨none, some p, 0, 0, [flag on 0]⟩
  | .tripped p x xs => ⟨some x.code, some p, 0, 0, [xs.code]⟩
  | .tripCleared p => ⟨none, some p, 0, 0, []⟩
  | .seatSilent x => ⟨none, none, 4, seatCode x, []⟩
  | .seatResumed x => ⟨none, none, 4, seatCode x, []⟩
  | .adopted p x => ⟨none, some p, 0, 0, [seatCode x]⟩
  | .claimExpired p n k => ⟨none, some p, 5, n, [k.code]⟩
  | .claimRemoved p n k silence => ⟨some (flag silence 0), some p, 5, n, [k.code]⟩
  | .handReleased p c r => ⟨some r.code, some p, 2, c.val, []⟩
  | .grantLost p silence => ⟨some (flag silence 0), some p, 0, 0, []⟩
  | .storeDone => ⟨none, none, 0, 0, []⟩
  | .storeFailed => ⟨none, none, 0, 0, []⟩

/-- The event record as bytes. -/
def EventRecord.bytes (r : EventRecord) : List Byte :=
  let f := r.event.fields
  let value (i : Nat) : List Byte := word (f.values.getD i 0)
  [byte r.event.kind, byteOr f.reason] ++ word r.seq ++ long r.time ++
    [byteOr (f.portal.map Fin.val), byte f.subjectType] ++ word f.subject ++
    value 0 ++ value 1 ++ value 2 ++ value 3

/-! ### Status records (R179) -/

/-- The part object. -/
def State.partBytes (s : State) : List Byte :=
  let image : Nat := if s.storing.isSome then 2 else if s.image.isSome then 0 else 1
  long s.uptime ++ [byte s.resetCause.code, byte image] ++ zeros 2

/-- A seat object. -/
def State.seatBytes (s : State) (x : Seat) : List Byte :=
  let q := s.queue x
  let p := s.port x
  [byte (flag p.silent 0), flags [p.lastComplete.isSome]] ++ word p.timeout ++
    word (s.untilStamp p.deadline) ++ word q.mask.toNat ++ [byte q.records.length] ++ zeros 3 ++
    longOr p.lastComplete

/-- A portal status object. -/
def State.portalBytes (s : State) (p : Fin 4) : List Byte :=
  let e := s.edit p
  let shadow : Nat :=
    match e.shadow with
    | none => 0
    | some x => if x.locked then 2 else 1
  [byte (s.baseOf p).code, flags [s.tripped p, e.pendingSet.isSome],
   byteOr (e.holder.map seatCode), byte shadow,
   byteOr (e.pendingSet.map fun x => seatCode x.seat)] ++ zeros 3 ++
    longOr (e.pendingSet.map PendingSet.time)

/-- A meter status object. -/
def State.meterBytes (s : State) (m : Fin 8) : List Byte :=
  let x := s.meter m
  let portal : Option (Fin 4) := if x.state = .unused then none else s.meterPortal m
  [byte x.state.code, byteOr (portal.map Fin.val)] ++ wordOr x.estimate ++
    [byte x.badCount, flags [x.window, x.heater, !x.ring.isEmpty]] ++ wordOr x.lastSeq ++
    [byte x.ring.length] ++ zeros 3 ++ longOr (x.ring.getLast?.map Reading.arrival)

/-- A sample ring record. -/
def Reading.bytes (r : Reading) : List Byte :=
  [byte r.seq, 0] ++ word r.luminance ++ long r.arrival

/-- A portal source object. -/
def State.sourceBytes (s : State) (p : Fin 4) : List Byte :=
  let e := s.eval p
  let indication : Nat := if e.mismatchReported then 2 else if e.mismatchSince.isSome then 1 else 0
  let run : Nat :=
    match e.mismatchSince with
    | none => 0
    | some t => (s.now - t) / 100
  [byte e.status.code, byte e.source.status.code] ++ word e.luminance ++ word e.demand ++
    word (s.remaining (s.holdEnd p)) ++ [byte indication, 0] ++ word run

/-- A stage selector object. -/
def State.selectorBytes (s : State) (p : Fin 4) : List Byte :=
  let l := s.selector p
  [byte (flag l.following 0), byte l.automatic, byte (s.set p).top, 0] ++ wordOr l.demandInUse ++
    word (s.remaining l.dwell) ++ long l.enteredAt

/-- A claim list record. -/
def State.claimBytes (s : State) (c : Claim) : List Byte :=
  word c.number ++ [byte (seatCode c.seat), byte c.kind.code] ++ wordOr c.argument ++
    [byteOr c.captured, flags [c.kept, c.deadline.isSome]] ++ long (s.untilStamp c.deadline) ++
    long c.pushedAt

/-- A claim arbiter object (R84). -/
def State.arbiterBytes (s : State) (p : Fin 4) : List Byte :=
  let a := s.arbiter p
  let number (c : Option Claim) : List Byte := word ((c.map Claim.number).getD 0)
  [byte a.effective, byte a.automatic, byte a.top, byte a.heldStage] ++ number a.stack ++
    [byte a.floor, byte a.cap] ++ number (a.giving .floor a.floor) ++ number (a.giving .cap a.cap) ++
    [byte a.claims.length, byte (a.countOf .A), byte (a.countOf .B), byte (a.countOf .L)] ++
    word s.claimCounter ++ zeros 2

/-- A zone status object (R107). -/
def State.zoneBytes (s : State) (p : Fin 4) (z : Fin 5) : List Byte :=
  match s.zone p z with
  | none => [0, 255] ++ wordOr none ++ wordOr none ++ wordOr none ++ wordOr none ++ wordOr none
  | some zn =>
    let b := s.boostShare p z
    [flags [true, needsBoost b zn.working, zn.switched, zn.confirmed, zn.degraded],
     byte zn.state.code] ++ word zn.working ++ wordOr zn.latest ++
      word (dimmedShare b zn.working) ++ word (s.remaining zn.overlap) ++
      word (s.remaining zn.confirm)

/-- What a line holds for a channel that a seat reads: miss count, driver status, whether an entry
waits at its address, and whether the channel waits for its farewell. -/
structure LineView where
  misses : Nat
  status : Option DriverStatus
  entry : Bool
  farewell : Bool
  deriving DecidableEq, Repr

/-- What a line holds for a channel as a departing one. The entry bit is that of the old address, also for
a replaced channel, whose status shows its new address: a DESIGN CHOICE (log 45). Of several farewells on
the line the oldest one is shown: a DESIGN CHOICE (log 46). -/
def LampLine.departedView (l : LampLine) (c : Fin 32) : Option LineView :=
  (l.departed.find? fun d => d.channel == c).map fun d =>
    { misses := d.misses, status := d.status, entry := l.waits d.addr, farewell := true }

/-- What a channel's line holds for it: at its address if it is on the line, else as a channel that
waits for its farewell (R140). Of a channel that has joined again while an old farewell waits, its new
place alone is shown, with the farewell bit 0: a DESIGN CHOICE (log 40). Of a channel with farewells on
several lines the lowest line's is shown: a DESIGN CHOICE (log 46). -/
def State.lineView (s : State) (c : Fin 32) : Option LineView :=
  match s.assignment c with
  | none => allPortals.findSome? fun n => (s.lampLine n).departedView c
  | some k =>
    let l := s.lampLine k.portal
    match rd l.stations k.addr with
    | none => l.departedView c
    | some t =>
      if t.channel = c then
        some { misses := t.misses, status := t.status, entry := l.waits k.addr, farewell := false }
      else l.departedView c

/-- The ramp direction of a channel: 0 at target, 1 rising, 2 falling (R108, R176). It compares the level
with the target also where Channel Output does not drive the channel toward it, in HAND and while the
portal is TRIPPED, and is 0 where there is no level and no target: a DESIGN CHOICE (log 39). -/
def Channel.direction (ch : Channel) : Nat :=
  match ch.level, ch.target with
  | some a, some b => if a < b then 1 else if b < a then 2 else 0
  | _, _ => 0

/-- A channel status object (R108, R140). The type bit of a channel that is not assigned is 0: a DESIGN
CHOICE (log 39). -/
def State.channelBytes (s : State) (c : Fin 32) : List Byte :=
  let ch := s.channel c
  let k := s.assignment c
  let v := s.lineView c
  let status : Option DriverStatus := v.bind LineView.status
  let bit (f : DriverStatus → Bool) : Bool := status.any f
  let zone : Option Nat := k.map fun k => (k.cfg.zone.map Fin.val).getD 7
  [byteOr (k.map fun k => k.portal.val), byteOr zone, byteOr (k.map fun k => k.addr.val),
   byte (flag (k.any fun k => k.cfg.switched) 0 + flag ch.hand.isSome 1 + 4 * ch.direction),
   byteOr (ch.hand.map fun h => seatCode h.seat), byteOr (v.map LineView.misses)] ++
    wordOr (ch.hand.map Hand.level) ++ wordOr ch.level ++ wordOr ch.target ++
    [flags [v.any fun v => v.misses == 3, v.any LineView.entry, v.any LineView.farewell,
            status.isSome, bit DriverStatus.lamp, bit DriverStatus.supply, bit DriverStatus.closed],
     0] ++ wordOr (status.map DriverStatus.level) ++ longOr (status.map DriverStatus.time)

/-- A lamp line object (R140). -/
def State.lineBytes (s : State) (n : Fin 4) : List Byte :=
  let l := s.lampLine n
  let kind : Nat :=
    match l.tx with
    | none => 0
    | some x => if x.level.isSome then 1 else 2
  [byte (flag l.down 0), byte kind, byteOr (l.tx.map fun x => x.addr.val), byte l.cursor.val,
   byte l.onLine.length, byte (l.onLine.filter fun t => t.misses == 3).length,
   byte l.updates.length, byte (l.updates.filter fun e => e.departing.isSome).length]

/-- A trip object (R123). -/
def State.tripBytes (s : State) (p : Fin 4) : List Byte :=
  let u := s.tripUnit p
  let r := s.record p
  [flags [u.overlay, r.fireArmed, r.lineArmed, u.fireLevel, u.debounced, u.fireLatch.isSome,
          u.orderLatch.isSome, s.linePresent p],
   byte u.sources.code, byte (flag u.lineDown 0),
   byteOr (u.orderLatch.map fun o => seatCode o.seat),
   byte ((u.orderLatch.map OrderLatch.reason).getD 0), flags [u.overlayAt.isSome]] ++
    word (s.remaining u.debounce) ++ longOr u.overlayAt ++ longOr u.fireLatch ++
    longOr (u.orderLatch.map OrderLatch.time)

/-! ### Objects by class, instance and index -/

/-- The seat with a code. -/
def seatOf (n : Nat) : Seat :=
  match n with
  | 0 => .A
  | 1 => .B
  | _ => .L

/-- The meter that a number 0 to 7 names. -/
def meterOf (n : Nat) : Fin 8 := ⟨n % 8, Nat.mod_lt n (by decide)⟩

/-- The channel that a number 0 to 31 names. -/
def channelOf (n : Nat) : Fin 32 := ⟨n % 32, Nat.mod_lt n (by decide)⟩

/-- The zone that a number 0 to 4 names. -/
def zoneIx (n : Nat) : Fin 5 := ⟨n % 5, Nat.mod_lt n (by decide)⟩

/-- The number of records in an object's index range at this moment (R154). -/
def State.objectRange (s : State) (seat : Seat) (cls owner : Nat) : Nat :=
  match cls with
  | 0 => 1
  | 1 => 3
  | 3 => 8
  | 4 => (s.meter (meterOf owner)).ring.length
  | 8 => (s.set (portalOf owner)).stageCount
  | 9 => (s.arbiter (portalOf owner)).claims.length
  | 11 => 20
  | 12 => 32
  | 15 => if (s.queue seat).records.isEmpty then 0 else 1
  | 18 => 12
  | 19 => 16
  | 22 => 12
  | 23 => 16
  | _ => 4

/-- The length of a class's records (R178, R179). -/
def recordBytes (cls : Nat) : Nat :=
  match cls with
  | 0 => 8
  | 2 => 12
  | 4 => 8
  | 5 => 12
  | 6 => 12
  | 7 => 2
  | 10 => 20
  | 11 => 12
  | 12 => 20
  | 13 => 8
  | 14 => 20
  | 15 => 20
  | 16 => 24
  | 17 => 2
  | 19 => 8
  | 20 => 24
  | 21 => 2
  | 23 => 8
  | _ => 16

/-- The record of an object at an index; `none` if the entry of a list has gone. -/
def State.objectBytes (s : State) (seat : Seat) (cls owner index : Nat) : Option (List Byte) :=
  let p := portalOf index
  let q := portalOf owner
  let shadow (p : Fin 4) : Option PortalSet := ((s.edit p).shadow).map Shadow.set
  let pendingOf (p : Fin 4) : Option PortalSet := ((s.edit p).pendingSet).map PendingSet.set
  match cls with
  | 0 => some s.partBytes
  | 1 => some (s.seatBytes (seatOf index))
  | 2 => some (s.portalBytes p)
  | 3 => some (s.meterBytes (meterOf index))
  | 4 => ((s.meter (meterOf owner)).ring[index]?).map Reading.bytes
  | 5 => some (s.sourceBytes p)
  | 6 => some (s.selectorBytes p)
  | 7 => some (headerBytes (s.set p).stageCount)
  | 8 => if index < (s.set q).stageCount then some ((s.set q).row index).bytes else none
  | 9 => ((s.arbiter q).claims[index]?).map s.claimBytes
  | 10 => some (s.arbiterBytes p)
  | 11 => some (s.zoneBytes (portalOf (index / 5)) (zoneIx index))
  | 12 => some (s.channelBytes (channelOf index))
  | 13 => some (s.lineBytes p)
  | 14 => some (s.tripBytes p)
  | 15 => ((s.queue seat).records.head?).map EventRecord.bytes
  | 16 => some (setBytes (shadow p) 16 index)
  | 17 => some (setBytes (shadow p) 17 index)
  | 18 => some (setBytes (shadow q) 18 index)
  | 19 => some (setBytes (shadow q) 19 index)
  | 20 => some (setBytes (pendingOf p) 16 index)
  | 21 => some (setBytes (pendingOf p) 17 index)
  | 22 => some (setBytes (pendingOf q) 18 index)
  | 23 => some (setBytes (pendingOf q) 19 index)
  | _ => none

end Sys2Proof.Machine
end

