-- ==== Sys2Proof/Machine/Seats.lean ====
section
/-! DEFINITION. The Seat Port (chapter 8): frames, READ, the seat's own commands, silence and return.
RESTART is in Machine/Reset.lean. -/

namespace Sys2Proof.Machine

/-! ### Frames (R142) -/

/-- The preamble: the outcome as it stands (R177). -/
def SeatPort.preamble (p : SeatPort) : List Byte :=
  [byte p.code.code, p.condition.byte] ++ word p.value

/-- FRAME_BEGIN: select is asserted, and the preamble is shifted out; in a frame it is asserted already
(log 9). -/
def execFrameBegin (seat : Seat) (s : State) : Host.Outcome State Fault Refusal :=
  let p := s.port seat
  if p.phase = .idle then .next (s.setPort seat { p with phase := .header, out := p.preamble })
  else .next s

/-- BAD_COMMAND: the header of a code that names a command is no such event (R143, R177). -/
def execBadCommand (seat : Seat) (code : Byte) (s : State) : Host.Outcome State Fault Refusal :=
  if namesCommand code then .next s
  else
    .next (inHeader seat s fun s =>
      endCommand seat .badCommand 0 (s.port seat).condition.clearedA s)

/-- NOP (R155). -/
def execNop (seat : Seat) (s : State) : Host.Outcome State Fault Refusal :=
  .next (inHeader seat s (accept seat 0 false false false))

/-- CLEAR_CONDITION (R155). -/
def execClearCondition (seat : Seat) (s : State) : Host.Outcome State Fault Refusal :=
  .next (inHeader seat s fun s => endCommand seat .ok 0 (s.port seat).condition.clearL s)

/-! ### READ (R146, R148, R154) -/

/-- The header checks of a READ (R143). -/
def readTransfer (seat : Seat) (h : Header) (s : State) : Except ResultCode Transfer :=
  if classExists h.cls h.owner then transferOf h (s.objectRange seat h.cls h.owner)
  else .error .badObject

/-- A seat's frame goes on in a phase, with some bytes to shift out before filler. -/
def setPhase (seat : Seat) (phase : FramePhase) (out : List Byte) (s : State) : State :=
  s.setPort seat { s.port seat with phase := phase, out := out }

/-- The header of a READ; the turnaround byte is filler (R142, R177). -/
def readCommand (seat : Seat) (h : Header) (s : State) : State :=
  match readTransfer seat h s with
  | .error code => endCommand seat code 0 (s.port seat).condition.clearedA s
  | .ok t => setPhase seat (.reading t none) [filler] s

/-- READ. -/
def execRead (seat : Seat) (h : Header) (s : State) : Host.Outcome State Fault Refusal :=
  .next (inHeader seat s (readCommand seat h))

/-- The end of a READ (R154). -/
def endRead (seat : Seat) (code : ResultCode) (delivered : Nat) (s : State) : State :=
  let w := (s.port seat).condition
  endCommand seat code delivered (if code = .ok then w.setA else w.clearedA) s

/-- Free values for the record of a list entry that has gone (log 11). -/
def State.freeBytes (s : State) (n : Nat) : List Byte :=
  (List.range n).map fun i => Config.freeByte (s.freeIndex + i)

/-- The first byte of a record begins to be shifted out: its snapshot is taken (R148). -/
def startRecord (seat : Seat) (t : Transfer) (s : State) : State :=
  let shift (bytes : List Byte) (s : State) : State :=
    setPhase seat (.reading t (some bytes)) bytes s
  match s.objectBytes seat t.cls t.owner t.index with
  | some bytes => shift bytes s
  | none =>
    let n := recordBytes t.cls
    shift (s.freeBytes n) { s with freeIndex := s.freeIndex + n }

/-- The pop of the seat's own queue at the delivery of an event queue record (R173). -/
def popDelivered (seat : Seat) (t : Transfer) (s : State) : State :=
  if t.cls = 15 then s.setQueue seat (s.queue seat).pop else s

/-- A record is delivered: it is counted, and the index test for the next one is made (R146, R148). -/
def deliverRecord (seat : Seat) (t : Transfer) (s : State) : State :=
  let popped := popDelivered seat t s
  if t.left ≤ 1 then endRead seat .ok (t.done + 1) popped
  else
    match t.stepping.next t.index with
    | none => endRead seat .badIndex (t.done + 1) popped
    | some i =>
      if i < popped.objectRange seat t.cls t.owner then
        setPhase seat
          (.reading { t with index := i, left := t.left - 1, done := t.done + 1 } none) [] popped
      else endRead seat .badIndex (t.done + 1) popped

/-- READ_RECORD: a delivery that no start came before takes the snapshot first (log 10). -/
def execReadRecord (seat : Seat) (phase : RecordPhase) (s : State) :
    Host.Outcome State Fault Refusal :=
  match (s.port seat).phase, phase with
  | .reading t none, .start => .next (startRecord seat t s)
  | .reading t none, .delivery => .next (deliverRecord seat t (startRecord seat t s))
  | .reading t (some _), .delivery => .next (deliverRecord seat t s)
  | _, _ => .next s

/-! ### Silence and return (R151, R152) -/

/-- A seat becomes SILENT, with every effect of R151. -/
def silence (seat : Seat) (s : State) : State :=
  let quiet := s.setPort seat { s.port seat with silent := true, deadline := none }
  silenceGrants seat
    (silenceChannels seat (silenceClaims seat (postOthers seat (.seatSilent seat) quiet)))

/-- The silence deadline has passed: an ACTIVE seat becomes SILENT, and a SILENT one stays so
(log 25). -/
def passDeadline (seat : Seat) (s : State) : State :=
  if (s.port seat).silent then s.setPort seat { s.port seat with deadline := none }
  else silence seat s

/-- SEAT_SILENT (R151). -/
def execSeatSilent (seat : Seat) (s : State) : Host.Outcome State Fault Refusal :=
  if s.passed (s.port seat).deadline then done (passDeadline seat s) else .next s

/-- The end of a complete frame (R151, R152). -/
def completeFrame (seat : Seat) (s : State) : State :=
  let p := s.port seat
  let deadline := if p.timeout = 0 then none else some (s.tenths + 10 * p.timeout)
  let ended := s.setPort seat
    { p with silent := false, lastComplete := some s.tenths, deadline := deadline }
  if p.silent then postOthers seat (.seatResumed seat) ended else ended

/-! ### SET_SEAT (R153) -/

/-- The seat's own values are replaced; the two reserved bits of the mask are ignored (R176, R177). -/
def setSeatValues (seat : Seat) (timeout mask : Nat) (s : State) : State :=
  let p := s.port seat
  let deadline := if timeout = 0 then none else some (p.lastComplete.getD 0 + 10 * timeout)
  let timed := s.setPort seat { p with timeout := timeout, deadline := deadline }
  timed.setQueue seat { timed.queue seat with mask := BitVec.ofNat 16 (mask % 16384) }

/-- The checks and the effect of SET_SEAT. -/
def setSeatCommand (seat : Seat) (h : Header) (timeout mask : Nat) (s : State) : State :=
  if h.records ≠ 1 then refuse seat .badValue 0 s
  else if 600 < timeout then refuse seat .badValue 1 s
  else
    let set := setSeatValues seat timeout mask s
    let after := if set.passed (set.port seat).deadline then passDeadline seat set else set
    accept seat 0 false false false after

/-- SET_SEAT. -/
def execSetSeat (seat : Seat) (h : Header) (bytes : List Byte) (s : State) :
    Host.Outcome State Fault Refusal :=
  done (withRecord seat 4 bytes s (setSeatCommand seat h (wordAt bytes 0) (wordAt bytes 2)))

/-! ### FRAME_END (R142, R144, R147, R148, R151) -/

/-- The code with which R143 refuses the header of a record-carrying command, if it does. -/
def headerRefusal (seat : Seat) (c : RecordCommand) (h : Header) : Option ResultCode :=
  match c with
  | .write =>
    match writeTransfer h with
    | .error code => some code
    | .ok _ => none
  | .withdrawAny => if seat ≠ .L then some .seatDenied else none
  | _ => none

/-- The end of a command cut short (R144, R149). -/
def endShort (seat : Seat) (s : State) : State :=
  endCommand seat .short 0 (s.port seat).condition.clearedA s

/-- The end of a frame: no frame is in progress. -/
def leaveFrame (seat : Seat) (complete : Bool) (s : State) : State :=
  setPhase seat .idle [] (if complete then completeFrame seat s else s)

/-- The release of select in a frame whose header was not complete at its last event. Bytes that follow
a header refused by R143 are tail: a DESIGN CHOICE (log 50). -/
def endInHeader (seat : Seat) (cut : Cut) (s : State) : State :=
  match cut with
  | .boundary => leaveFrame seat false s
  | .inside => leaveFrame seat false (endShort seat s)
  | .firstRecord c h n =>
    match headerRefusal seat c h with
    | some code => leaveFrame seat true (refuse seat code 0 s)
    | none => leaveFrame seat (n == 0) (endShort seat s)

/-- The release of select. All that follows the end of a command is tail, and the frame is complete
wherever select is released in it, also among the bytes of a would-be record: a DESIGN CHOICE (log 50). -/
def endFrame (seat : Seat) (cut : Cut) (s : State) : State :=
  match (s.port seat).phase with
  | .idle => s
  | .header => endInHeader seat cut s
  | .reading t _ => leaveFrame seat (cut == .boundary) (endRead seat .ok t.done s)
  | .writing t => leaveFrame seat (cut == .boundary) (endWrite seat .ok t.done s)
  | .tail => leaveFrame seat true s

/-- FRAME_END. -/
def execFrameEnd (seat : Seat) (cut : Cut) (s : State) : Host.Outcome State Fault Refusal :=
  .next (endFrame seat cut s)

end Sys2Proof.Machine
end

