-- ==== Sys2Proof/Machine/Reset.lean ====
section
/-! DEFINITION. The three kinds of reset: POWER_ON and RESET_LINE, which load the stored image, and
RESTART, which keeps the active sets, the trips and the lamp lines. -/

namespace Sys2Proof.Machine

/-! ### What every reset gives (R4, R37, R38, R62, R85, R157, R175) -/

/-- The base state after a reset (R4). -/
def PortalSet.baseAfter (x : PortalSet) : BaseState :=
  if x.record.enabled then .starting else .unconfigured

/-- A meter after a reset: STARTING if an active record binds it (R37). -/
def meterAfter (sets : Vector PortalSet 4) (m : Fin 8) : Meter :=
  if allPortals.any fun p => (rd sets p).record.binds m then Meter.unused.restart else Meter.unused

/-- A Stage Selector after a reset (R62). -/
def PortalSet.selectorAfter (x : PortalSet) : Selector :=
  { following := false, automatic := x.top, dwell := some ((x.row x.top).dwell * 1000),
    enteredAt := 0, demandInUse := none }

/-- A Claim Arbiter after a reset (R85). -/
def PortalSet.arbiterAfter (x : PortalSet) : Arbiter :=
  { claims := [], effective := x.top, automatic := x.top, top := x.top }

/-- A zone's level in the top stage. -/
def PortalSet.topLevel (x : PortalSet) (z : Fin 5) : Nat := rd (x.row x.top).levels z

/-- Everything that every kind of reset sets alike, over the given active sets. -/
def resetCommon (cause : ResetCause) (sets : Vector PortalSet 4) (s : State) : State :=
  { s with
    now := 0, nextRamp := rampIntervalMs, resetCause := cause
    meters := tab (meterAfter sets)
    active := sets
    edits := Vector.replicate 4 Edit.none
    base := tab fun p => (rd sets p).baseAfter
    evals := Vector.replicate 4 Evaluator.reset
    selectors := tab fun p => (rd sets p).selectorAfter
    arbiters := tab fun p => (rd sets p).arbiterAfter
    claimCounter := 1
    ports := Vector.replicate 3 SeatPort.reset
    queues := Vector.replicate 3 (EventQueue.reset cause) }

/-! ### Power-on and the RESET line (R14, R109, R124, R141, R168) -/

/-- A zone after power-on: STEADY at the split of its top-stage level (R109). -/
def PortalSet.zoneAfter (x : PortalSet) (z : Fin 5) : Option Zone :=
  if rd x.record.zones z then
    let on := needsBoost (rd x.record.boost z) (x.topLevel z)
    some
      { state := .steady, working := x.topLevel z, latest := none, switched := on,
        confirmed := false, overlap := none, confirm := if on then some confirmMs else none,
        degraded := false }
  else none

/-- A channel's target for the top stage (R7, R14). -/
def PortalSet.topTarget (x : PortalSet) (k : Circuit) : Nat :=
  match k.cfg.zone with
  | none => 0
  | some z =>
    let b := rd x.record.boost z
    let level := x.topLevel z
    if k.cfg.switched then (if needsBoost b level then 1000 else 0)
    else k.cfg.raised (shareLevel b (dimmedShare b level))

/-- A channel after power-on (R14). -/
def channelAfter (sets : Vector PortalSet 4) (c : Fin 32) : Channel :=
  match allPortals.findSome? fun p => (rd sets p).find p c with
  | none => Channel.unassigned
  | some k =>
    let target := (rd sets k.portal).topTarget k
    { hand := none, level := some target, target := some target, farewell := none }

/-- A lamp line after power-on (R141). -/
def lineAfter (sets : Vector PortalSet 4) (n : Fin 4) : LampLine :=
  let x := rd sets n
  let place (a : Fin 16) : Option Station :=
    (rd x.slots a).map fun r => { channel := r.channel, misses := 0, status := none }
  { LampLine.empty with
    stations := tab place
    updates := (x.circuits n).map fun k =>
      { addr := k.addr, level := x.topTarget k, owner := some k.cfg.channel, departing := none } }

/-- A Trip Unit after power-on (R124). -/
def PortalSet.tripAfter (x : PortalSet) (high : Bool) : TripUnit :=
  let level := xor high x.record.activeLow
  { TripUnit.reset with
    fireLevel := level, debounce := if level then some debounceMs else none }

/-- The image as power-on finds it: a write in progress leaves it invalid (R168). -/
def State.imageAfter (s : State) : Option (Vector PortalSet 4) :=
  if s.storing.isSome then none else s.image

/-- Power-on or the RESET line, before the lamp lines begin (R4, R168). -/
def powerUp (cause : ResetCause) (s : State) : State :=
  let image := s.imageAfter
  let sets := image.getD (Vector.replicate 4 PortalSet.default)
  let common := resetCommon cause sets s
  let loaded : State :=
    { common with
      zones := tab fun p => tab (rd sets p).zoneAfter
      channels := tab (channelAfter sets)
      lines := tab (lineAfter sets)
      trips := tab fun p => (rd sets p).tripAfter (rd s.firePins p)
      image := image, storing := none }
  if image.isNone then postAll .storeInvalid loaded else loaded

/-- POWER_ON (R4). -/
def execPowerOn (s : State) : Host.Outcome State Fault Refusal := done (powerUp .powerOn s)

/-- RESET_LINE (R4). -/
def execResetLine (s : State) : Host.Outcome State Fault Refusal := done (powerUp .resetLine s)

/-! ### RESTART (R109, R125, R141, R156, R168) -/

/-- A running timer keeps the time that remained to it. -/
def rebase (now : Nat) (timer : Option Nat) : Option Nat := timer.map fun t => t - now

/-- A transaction in progress keeps the time that remained to it (R141). -/
def TxPhase.rebase (now : Nat) : TxPhase → TxPhase
  | .sending t => .sending (t - now)
  | .window t heard => .window (t - now) heard

/-- A lamp line across a RESTART (R141). -/
def LampLine.keep (l : LampLine) (now : Nat) : LampLine :=
  { l with tx := l.tx.map fun x => { x with phase := x.phase.rebase now } }

/-- A Trip Unit across a RESTART (R125). The time the overlay was last set is present as 0 while the
portal is TRIPPED, and absent otherwise: a DESIGN CHOICE (log 35). -/
def TripUnit.keep (u : TripUnit) (now : Nat) : TripUnit :=
  { u with
    debounce := rebase now u.debounce
    fireLatch := u.fireLatch.map fun _ => 0
    orderLatch := u.orderLatch.map fun o => { o with time := 0 }
    overlayAt := if u.overlay then some 0 else none }

/-- A store write across a RESTART: its end posts no event (R168). It keeps the uptime of its acceptance
as it was, a stamp of the time before the reset: a DESIGN CHOICE (log 48). -/
def StoreWrite.keep (w : StoreWrite) (now : Nat) : StoreWrite :=
  { w with latest := w.latest - now, silenced := true }

/-- A present zone after a RESTART, before it plans (R109). -/
def restartZone (p : Fin 4) (z : Fin 5) (s : State) : State :=
  match s.zone p z with
  | none => s
  | some zn =>
    let kept : Zone :=
      { zn with
        working := (s.set p).topLevel z, latest := none, switched := s.switchedLevel p z
        confirmed := false, overlap := none, confirm := none, degraded := false }
    if s.tripped p then s.setZone p z (some { kept with state := .held })
    else plan p z kept s

/-- A channel of zone NONE after a RESTART: in AUTO its target is 0 or OFF (R7). -/
def restartLoose (k : Circuit) (s : State) : State :=
  if k.cfg.zone = none then driveSwitched k (giveTarget k 0 s) else s

/-- The zones and channels of a portal after a RESTART: the zones in ascending order, then the channels
of zone NONE by address, a DESIGN CHOICE (log 51). -/
def restartPortal (p : Fin 4) (s : State) : State :=
  forEach (s.circuits p) restartLoose (forEach allZones (restartZone p) s)

/-- An accepted RESTART. -/
def restartPart (s : State) : State :=
  let common := resetCommon .restart s.active s
  let kept : State :=
    { common with
      channels := tab fun c => { rd s.channels c with hand := none }
      lines := tab fun n => (rd s.lines n).keep s.now
      trips := tab fun p => (rd s.trips p).keep s.now
      storing := s.storing.map fun w => w.keep s.now }
  forEach allPortals restartPortal kept

/-- RESTART (R143, R156). -/
def execRestart (seat : Seat) (s : State) : Host.Outcome State Fault Refusal :=
  if seat ≠ .L then .next (inHeader seat s (refuse seat .seatDenied 0))
  else done (inHeader seat s restartPart)

end Sys2Proof.Machine
end

