-- ==== Sys2Proof/Machine/Dispatch.lean ====
section
/-! DEFINITION. One arm per command: the meaning of each row of spec/opcode_table.json. -/

namespace Sys2Proof.Machine

/-- The effect of a command on everything but the queue. -/
def exec (i : Instr) (s : State) : Host.Outcome State Fault Refusal :=
  match i with
  | .powerOn => Sys2Proof.Machine.execPowerOn s
  | .resetLine => Sys2Proof.Machine.execResetLine s
  | .frameBegin seat => Sys2Proof.Machine.execFrameBegin seat s
  | .badCommand seat code => Sys2Proof.Machine.execBadCommand seat code s
  | .nop seat => Sys2Proof.Machine.execNop seat s
  | .read seat header => Sys2Proof.Machine.execRead seat header s
  | .readRecord seat phase => Sys2Proof.Machine.execReadRecord seat phase s
  | .write seat header bytes => Sys2Proof.Machine.execWrite seat header bytes s
  | .writeRecord seat bytes => Sys2Proof.Machine.execWriteRecord seat bytes s
  | .pushClaim seat header bytes => Sys2Proof.Machine.execPushClaim seat header bytes s
  | .withdraw seat header bytes => Sys2Proof.Machine.execWithdraw seat header bytes s
  | .withdrawAny seat header bytes => Sys2Proof.Machine.execWithdrawAny seat header bytes s
  | .takeChannel seat header bytes => Sys2Proof.Machine.execTakeChannel seat header bytes s
  | .setChannel seat header bytes => Sys2Proof.Machine.execSetChannel seat header bytes s
  | .releaseChannel seat header bytes => Sys2Proof.Machine.execReleaseChannel seat header bytes s
  | .trip seat header bytes => Sys2Proof.Machine.execTrip seat header bytes s
  | .tripReset seat header bytes => Sys2Proof.Machine.execTripReset seat header bytes s
  | .takeGrant seat header => Sys2Proof.Machine.execTakeGrant seat header s
  | .seizeGrant seat header => Sys2Proof.Machine.execSeizeGrant seat header s
  | .releaseGrant seat header => Sys2Proof.Machine.execReleaseGrant seat header s
  | .commit seat header => Sys2Proof.Machine.execCommit seat header s
  | .discard seat header => Sys2Proof.Machine.execDiscard seat header s
  | .store seat => Sys2Proof.Machine.execStore seat s
  | .setSeat seat header bytes => Sys2Proof.Machine.execSetSeat seat header bytes s
  | .clearCondition seat => Sys2Proof.Machine.execClearCondition seat s
  | .restart seat => Sys2Proof.Machine.execRestart seat s
  | .frameEnd seat cut => Sys2Proof.Machine.execFrameEnd seat cut s
  | .seatSilent seat => Sys2Proof.Machine.execSeatSilent seat s
  | .readingFrame meter burst => Sys2Proof.Machine.execReadingFrame meter burst s
  | .staleDeadline meter => Sys2Proof.Machine.execStaleDeadline meter s
  | .holdTimerExpiry portal => Sys2Proof.Machine.execHoldTimerExpiry portal s
  | .mismatch portal => Sys2Proof.Machine.execMismatch portal s
  | .dwellExpiry portal => Sys2Proof.Machine.execDwellExpiry portal s
  | .claimExpired portal number => Sys2Proof.Machine.execClaimExpired portal number s
  | .rampInterval => Sys2Proof.Machine.execRampInterval s
  | .overlapOnExpiry portal zone => Sys2Proof.Machine.execOverlapOnExpiry portal zone s
  | .overlapOffExpiry portal zone => Sys2Proof.Machine.execOverlapOffExpiry portal zone s
  | .confirmTimeout portal zone => Sys2Proof.Machine.execConfirmTimeout portal zone s
  | .fireInputChange portal high => Sys2Proof.Machine.execFireInputChange portal high s
  | .debounceExpiry portal => Sys2Proof.Machine.execDebounceExpiry portal s
  | .frameSent line => Sys2Proof.Machine.execFrameSent line s
  | .statusReply line burst => Sys2Proof.Machine.execStatusReply line burst s
  | .replyWindowExpiry line => Sys2Proof.Machine.execReplyWindowExpiry line s
  | .adoption portal => Sys2Proof.Machine.execAdoption portal s
  | .storeWriteEnd verified => Sys2Proof.Machine.execStoreWriteEnd verified s

end Sys2Proof.Machine
end

