-- ==== Sys2Proof/Machine/Step.lean ====
section
/-! DEFINITION. One step of the part: the command at the front of the queue, or, on an empty queue, the
tick of the time base. -/

namespace Sys2Proof.Machine

/-- The first of some things that a test picks, as a command. -/
def firstDue {α : Type} (l : List α) (due : α → Bool) (command : α → Instr) : Option Instr :=
  (l.find? due).map command

/-- The zones of the part, portal by portal. -/
def zonePairs : List (Fin 4 × Fin 5) := allPortals.flatMap fun p => allZones.map fun z => (p, z)

/-- A zone that is in a state where a timer of its acts, and whose timer is due. -/
def State.zoneDue (s : State) (inState : ZoneState → Bool) (timer : Zone → Option Nat)
    (x : Fin 4 × Fin 5) : Bool :=
  (s.zone x.1 x.2).any fun zn => inState zn.state && s.due (timer zn)

/-- The number of the oldest claim of a portal whose deadline is reached. -/
def State.expiredClaim (s : State) (p : Fin 4) : Option Nat :=
  ((s.arbiter p).claims.find? fun c => s.passed c.deadline).map Claim.number

/-- Whether the frame of a line has taken the whole of its 10 ms (R126, log 17). -/
def State.frameDue (s : State) (n : Fin 4) : Bool :=
  (s.lampLine n).tx.any fun x =>
    match x.phase with
    | .sending t => decide (t ≤ s.now)
    | .window _ _ => false

/-- Whether the reply window of a line has reached its expiry. -/
def State.windowDue (s : State) (n : Fin 4) : Bool :=
  (s.lampLine n).tx.any fun x =>
    match x.phase with
    | .sending _ => false
    | .window t _ => decide (t ≤ s.now)

/-- The moment by which the store write in flight ends. -/
def State.writeDue (s : State) : Bool := s.storing.any fun w => decide (w.latest ≤ s.now)

/-- The events that the part brings about itself and that are due, first of each kind, in the order in
which the idle step takes them (log 2). -/
def State.dueCommands (s : State) : List (Option Instr) :=
  [ firstDue allPortals (fun p => s.hasPending p && s.adoptionPoint p) .adoption,
    firstDue allSeats (fun x => s.passed (s.port x).deadline) .seatSilent,
    firstDue allMeters (fun m => s.passed (s.meter m).staleDeadline && (s.meterPortal m).isSome)
      .staleDeadline,
    firstDue allPortals (fun p => (s.eval p).source == .hold && s.due (s.holdEnd p))
      .holdTimerExpiry,
    firstDue allPortals
      (fun p => s.due (s.mismatchEnd p) && (s.record p).slot0.isSome && (s.record p).slot1.isSome)
      .mismatch,
    allPortals.findSome? fun p => (s.expiredClaim p).map fun n => .claimExpired p n,
    firstDue allPortals (fun p => s.due (s.selector p).dwell) .dwellExpiry,
    firstDue zonePairs (s.zoneDue (· == .overlapOn) Zone.overlap) fun x => .overlapOnExpiry x.1 x.2,
    firstDue zonePairs (s.zoneDue (· == .overlapOff) Zone.overlap) fun x =>
      .overlapOffExpiry x.1 x.2,
    firstDue zonePairs (s.zoneDue (· != .held) Zone.confirm) fun x => .confirmTimeout x.1 x.2,
    firstDue allPortals (fun p => s.due (s.tripUnit p).debounce) .debounceExpiry,
    firstDue allPortals s.frameDue .frameSent,
    firstDue allPortals s.windowDue .replyWindowExpiry,
    if s.writeDue then some (.storeWriteEnd (Config.verifyHolds s.freeIndex)) else none,
    if s.nextRamp ≤ s.now then some .rampInterval else none ]

/-- The first event that is due. -/
def State.nextDue (s : State) : Option Instr := s.dueCommands.findSome? id

/-- The idle step: the first event that is due joins the queue, a free value being drawn with it; if
none is due, 1 ms passes (logs 1, 2 and 12). -/
def idle (s : State) : State :=
  match s.nextDue with
  | some c => { s with pending := [c], freeIndex := s.freeIndex + 1 }
  | none => { s with now := s.now + 1 }

/-- One step of the part. -/
def step (s : State) : Host.Outcome State Fault Refusal :=
  match s.pending with
  | [] => .next (idle s)
  | c :: rest => exec c { s with pending := rest }

/-- The state with the command that a word spells at the front of its queue: no word spells one. -/
def State.withFetchWord (s : State) (nbits w : Nat) : State :=
  match decodeTableWord nbits w with
  | none => s
  | some c => { s with pending := c :: s.pending }

end Sys2Proof.Machine
end

