-- ==== Sys2Proof/Safety.lean ====
section
/-! DEFINITION. What holds of the part in every state that a run reaches (the invariants), what a safe
step is, and the words in which the statements say what a command leaves unchanged. -/

namespace Sys2Proof.Machine

/-! ### Invariants -/

/-- Whether a record is an OVERFLOW record. -/
def EventRecord.isOverflow (r : EventRecord) : Bool :=
  match r.event with
  | .overflow _ => true
  | _ => false

/-- An event queue as R169 to R174 describe it: at most 31 records that report events, then at most an
OVERFLOW record, which is there exactly in overflow state OVERFLOWED; a 16-bit sequence number; and an
attention line asserted exactly while the queue is not empty. -/
def EventQueue.wf (q : EventQueue) : Prop :=
  ∃ reports : List EventRecord, ∃ last : Option EventRecord,
    q.records = reports ++ last.toList ∧ reports.length ≤ 31 ∧
      (∀ r ∈ reports, r.isOverflow = false) ∧ (∀ r ∈ last, r.isOverflow = true) ∧
      q.overflowed = last.isSome ∧ q.seq < 65536 ∧ q.attention = !q.records.isEmpty

/-- Every event queue is as R169 to R174 describe it. -/
def QueuesWf (s : State) : Prop := ∀ seat : Seat, (s.queue seat).wf

/-- A portal's shadow set exists exactly while its grant is held (R158). -/
def GrantsWf (s : State) : Prop :=
  ∀ p : Fin 4, ((s.edit p).holder.isSome) = ((s.edit p).shadow.isSome)

/-- No two entries of one update set share an address (section 7.2). -/
def UpdatesWf (s : State) : Prop :=
  ∀ n : Fin 4, ((s.lampLine n).updates.map Entry.addr).Nodup

/-- A claim list holds at most 4 claims of any one seat (R64). -/
def ClaimsWf (s : State) : Prop :=
  ∀ (p : Fin 4) (seat : Seat), (s.arbiter p).countOf seat ≤ 4

/-- A sample ring holds at most 16 readings (R18). -/
def RingsWf (s : State) : Prop := ∀ m : Fin 8, (s.meter m).ring.length ≤ 16

/-- A miss count lies from 0 to 3 (section 7.3). -/
def MissesWf (s : State) : Prop :=
  ∀ (n : Fin 4) (a : Fin 16), ∀ t ∈ rd (s.lampLine n).stations a, t.misses ≤ 3

/-- A portal is UNCONFIGURED exactly while its active record is not enabled (section 1.2); its trip
sources are those that R110 names, and its overlay is set exactly while there is one. -/
def TripsWf (s : State) : Prop :=
  ∀ p : Fin 4,
    (s.baseOf p = .unconfigured ↔ (s.record p).enabled = false) ∧
      (s.tripUnit p).sources = s.sourcesOf p ∧
      (s.tripUnit p).overlay = ((s.tripUnit p).sources != TripSet.empty)

/-- A step is safe: the part goes on. -/
def SafeStep (s : State) : Prop := ∃ t, step s = .next t

/-! ### What a command leaves unchanged -/

/-- The clock, the reset cause, the fire inputs, the queue of commands and the free values. -/
def SameClock (s t : State) : Prop :=
  t.now = s.now ∧ t.nextRamp = s.nextRamp ∧ t.resetCause = s.resetCause ∧
    t.freeIndex = s.freeIndex ∧ t.firePins = s.firePins ∧ t.pending = s.pending

/-- The Set Store: active sets, grants, shadows and pending sets, the image and the store state. -/
def SameSets (s t : State) : Prop :=
  t.active = s.active ∧ t.edits = s.edits ∧ t.image = s.image ∧ t.storing = s.storing

/-- The Meter Intake. -/
def SameMeters (s t : State) : Prop := t.meters = s.meters

/-- The Portal Evaluators and the base states. -/
def SameSource (s t : State) : Prop := t.evals = s.evals ∧ t.base = s.base

/-- The Stage Selectors, the Claim Arbiters and the claim number counter. -/
def SameStage (s t : State) : Prop :=
  t.selectors = s.selectors ∧ t.arbiters = s.arbiters ∧ t.claimCounter = s.claimCounter

/-- The Zone Sequencers and the Channel Outputs. -/
def SameLight (s t : State) : Prop := t.zones = s.zones ∧ t.channels = s.channels

/-- The Trip Units. -/
def SameTrips (s t : State) : Prop := t.trips = s.trips

/-- The lamp lines, but for transactions that begin at the end of the event. -/
def SameLines (s t : State) : Prop := t.lines = s.lines ∨ t.lines = (beginTransactions s).lines

/-- The seat ports of the other seats. -/
def SameOtherPorts (seat : Seat) (s t : State) : Prop := ∀ x, x ≠ seat → t.port x = s.port x

/-- The event queues. -/
def SameQueues (s t : State) : Prop := t.queues = s.queues

/-- The lighting of the part: zones, channels, trips and lamp lines. -/
def SameOutput (s t : State) : Prop := SameLight s t ∧ SameTrips s t ∧ SameLines s t

/-- The daylight path: meters, evaluators, base states, selectors and arbiters. -/
def SameDaylight (s t : State) : Prop := SameMeters s t ∧ SameSource s t ∧ SameStage s t

/-- Everything but one seat port, and transactions that begin at the end of the event. -/
def SameButPort (seat : Seat) (s t : State) : Prop :=
  SameClock s t ∧ SameSets s t ∧ SameDaylight s t ∧ SameOutput s t ∧ SameOtherPorts seat s t ∧
    SameQueues s t

/-- Everything but the seat ports and the event queues, and transactions that begin at the end of the
event. -/
def SameInside (s t : State) : Prop :=
  SameClock s t ∧ SameSets s t ∧ SameDaylight s t ∧ SameOutput s t

/-- The blocks of one portal: base state, Portal Evaluator, Stage Selector, Claim Arbiter, Zone
Sequencers, Trip Unit and what the Set Store holds for it. -/
def SamePortal (p : Fin 4) (s t : State) : Prop :=
  t.baseOf p = s.baseOf p ∧ t.eval p = s.eval p ∧ t.selector p = s.selector p ∧
    t.arbiter p = s.arbiter p ∧ rd t.zones p = rd s.zones p ∧ t.tripUnit p = s.tripUnit p ∧
    t.set p = s.set p ∧ t.edit p = s.edit p

/-- Everything but the state of one zone, and what the zone does through its channels. -/
def SameButZone (p : Fin 4) (z : Fin 5) (s t : State) : Prop :=
  SameClock s t ∧ SameSets s t ∧ SameDaylight s t ∧ SameTrips s t ∧ t.ports = s.ports ∧
    ∀ q w, ¬ (q = p ∧ w = z) → t.zone q w = s.zone q w

/-! ### Words for outcomes -/

/-- The L flag of a seat's condition word, which most commands leave unchanged. -/
abbrev State.raisedFlag (s : State) (seat : Seat) : Bool := (s.port seat).condition.l

/-- A seat's command has ended: its outcome and its condition word are written, the rest of the frame is
ignored, and filler is shifted out (R143, R145, R149). -/
def answer (seat : Seat) (code : ResultCode) (value : Nat) (a c l p : Bool) (s : State) : State :=
  s.setPort seat
    { s.port seat with
      code := code, value := value, condition := { a := a, c := c, l := l, p := p }, phase := .tail
      out := [] }

/-- The answer of a refusal that clears A, C and P and leaves L. -/
def denied (seat : Seat) (code : ResultCode) (value : Nat) (s : State) : State :=
  answer seat code value false false (s.raisedFlag seat) false s

/-- The answer of an acceptance that clears P and leaves L, with the C flag given. -/
def granted (seat : Seat) (value : Nat) (c : Bool) (s : State) : State :=
  answer seat .ok value true c (s.raisedFlag seat) false s

/-- A seat port at the end of a complete frame at a stamp (R151). -/
def SeatPort.completed (x : SeatPort) (time : Nat) : SeatPort :=
  { x with
    silent := false, lastComplete := some time, phase := .idle, out := []
    deadline := if x.timeout = 0 then none else some (time + 10 * x.timeout) }

/-- A circuit whose channel no other circuit of the active sets names (R12, R163). -/
def State.only (s : State) (k : Circuit) : Prop :=
  k ∈ s.circuits k.portal ∧
    ∀ q, ∀ j ∈ s.circuits q, j.cfg.channel = k.cfg.channel → j = k

end Sys2Proof.Machine
end

