-- ==== Sys2Proof/Certificates/Slice0/Obligations.lean ====
section
/-! DEFINITION. The statements for the provers, one proposition each. -/

open Sys2Proof Sys2Proof.Machine

/-! ### Steps and resets -/

/-- A step takes the command at the front of the queue and runs it with the queue's rest. The
model's choice (logs 1 and 2): on an empty queue the first event that is due joins the queue, else 1
ms passes. -/
def Obligations.StepRunsTheFrontCommand : Prop :=
  (∀ (c : Instr) (s : State), step { s with pending := c :: s.pending } = exec c s) ∧
  (∀ s : State, s.pending = [] →
    (∀ c, s.nextDue = some c →
      step s = .next { s with pending := [c], freeIndex := s.freeIndex + 1 }) ∧
    (s.nextDue = none → step s = .next { s with now := s.now + 1 }))

/-- No command stops the part, on any operands and in any state. -/
def Obligations.EveryCommandAnswersNext : Prop :=
  ∀ (c : Instr) (s : State), ∃ t, exec c s = .next t

/-- The values that every kind of reset gives alike (R4, R37, R38, R62, R85, R157, R168, R175). -/
def Sys2Proof.Machine.AfterReset (cause : ResetCause) (t : State) : Prop :=
  t.now = 0 ∧ t.nextRamp = 100 ∧ t.resetCause = cause ∧ t.claimCounter = 1 ∧
  (∀ m, t.meter m =
    { state := if (t.meterPortal m).isSome then .starting else .unused, ring := [], estimate := none,
      badCount := 0, lastSeq := none, window := false, heater := false, staleDeadline := none }) ∧
  (∀ p, (t.edit p).holder = none ∧ (t.edit p).shadow = none ∧ (t.edit p).pendingSet = none) ∧
  (∀ p, t.baseOf p = if (t.record p).enabled then .starting else .unconfigured) ∧
  (∀ p, (t.eval p).source = .none ∧ (t.eval p).status = .none ∧ (t.eval p).luminance = 0 ∧
    (t.eval p).demand = 0 ∧ (t.eval p).holdSince = none ∧ (t.eval p).mismatchSince = none ∧
    (t.eval p).mismatchReported = false) ∧
  (∀ p, t.selector p =
    { following := false, automatic := (t.set p).top,
      dwell := some (((t.set p).row (t.set p).top).dwell * 1000), enteredAt := 0,
      demandInUse := none }) ∧
  (∀ p, t.arbiter p =
    { claims := [], effective := (t.set p).top, automatic := (t.set p).top, top := (t.set p).top }) ∧
  (∀ seat, t.port seat =
    { silent := false, timeout := 10, deadline := some 100, lastComplete := none, code := .none,
      value := 0, condition := { a := false, c := false, l := false, p := false }, phase := .idle,
      out := [] }) ∧
  (∀ c, (t.channel c).hand = none)

/-- The first level of a channel of a set after power-on, which is also its target (R6, R7, R14, R109): the
split of its zone's level in the top stage, or 0 and OFF for zone NONE. No portal is TRIPPED then. -/
def Sys2Proof.Machine.FirstLevel (x : PortalSet) (r : ChannelRecord) : Nat :=
  match r.zone with
  | none => 0
  | some z =>
    let b := rd x.record.boost z
    let level := rd (x.row (x.stageCount - 1)).levels z
    let boost : Bool := decide (0 < b ∧ 1000 - b < level)
    let dimmed := (if boost then level - b else level) * 1000 / (1000 - b)
    if r.switched then (if boost then 1000 else 0)
    else if 0 < dimmed ∧ dimmed < r.minLevel then r.minLevel else dimmed

/-- Power-on and the RESET line (R4): the image decides the active sets; every lamp line begins
anew, its update set with one entry per channel in ascending order of address, the first of them as
its first transaction (R141); and no portal is TRIPPED. The model's choices here: `out := []` in
every seat port (log 26), and a free index that a reset keeps (logs 11 and 12). -/
def Obligations.PowerOnAndResetLineLoadTheImage : Prop :=
  ∀ (s : State) (c : Instr) (cause : ResetCause),
    (c = .powerOn ∧ cause = .powerOn) ∨ (c = .resetLine ∧ cause = .resetLine) →
    ∃ t, exec c s = .next t ∧ AfterReset cause t ∧
      t.image = (if s.storing.isSome then none else s.image) ∧ t.storing = none ∧
      t.active = t.image.getD (Vector.replicate 4 PortalSet.default) ∧
      t.firePins = s.firePins ∧ t.pending = s.pending ∧ t.freeIndex = s.freeIndex ∧
      (∀ seat, t.queue seat =
        { records :=
            { event := .restarted cause, seq := 0, time := 0 } ::
              (if t.image.isNone then [{ event := .storeInvalid, seq := 1, time := 0 }] else []),
          seq := if t.image.isNone then 2 else 1, overflowed := false, mask := 0x3FFF#16,
          attention := true }) ∧
      (∀ p z, t.zone p z =
        if rd (t.record p).zones z then
          let b := rd (t.record p).boost z
          let level := rd ((t.set p).row (t.set p).top).levels z
          let on : Bool := decide (0 < b ∧ 1000 - b < level)
          some
            { state := .steady, working := level, latest := none, switched := on,
              confirmed := false, overlap := none, confirm := if on then some 2000 else none,
              degraded := false }
        else none) ∧
      (∀ ch, t.assignment ch = none →
        t.channel ch = { hand := none, level := none, target := none, farewell := none }) ∧
      (∀ ch k, t.assignment ch = some k →
        t.channel ch = { hand := none, level := some (FirstLevel (t.set k.portal) k.cfg),
                         target := some (FirstLevel (t.set k.portal) k.cfg), farewell := none }) ∧
      (∀ n,
        let entries : List Entry := ((t.set n).circuits n).map fun k =>
          { addr := k.addr, level := FirstLevel (t.set n) k.cfg, owner := some k.cfg.channel,
            departing := none }
        (t.lampLine n).down = false ∧ (t.lampLine n).departed = [] ∧ (t.lampLine n).cursor = 15 ∧
        (∀ a, rd (t.lampLine n).stations a =
          (rd (t.set n).slots a).map fun r =>
            { channel := r.channel, misses := 0, status := none }) ∧
        (entries = [] → (t.lampLine n).updates = [] ∧ (t.lampLine n).tx = none) ∧
        (∀ e rest, entries = e :: rest → (t.lampLine n).updates = rest ∧
          (t.lampLine n).tx = some
            { level := some e.level, addr := e.addr, channel := e.owner, departing := none,
              frame := levelFrame e.addr e.level, phase := .sending 10 })) ∧
      (∀ p, (t.tripUnit p).overlay = false ∧ (t.tripUnit p).fireLatch = none ∧
        (t.tripUnit p).orderLatch = none ∧ (t.tripUnit p).lineDown = false ∧
        (t.tripUnit p).debounced = false ∧ (t.tripUnit p).overlayAt = none ∧
        (t.tripUnit p).fireLevel = t.fireRead p ∧
        (t.tripUnit p).debounce = if t.fireRead p then some 200 else none)

/-- What the part holds at the model's reset state: the values of every reset, and the default sets
of R14. That the image is invalid and the fire inputs are low then is the model's choice (logs 4 and
5), and so is `out := []` in every seat port (log 26) and the dwell of 0 of the default table's row
(log 32). Every invariant above holds at reset. -/
def Obligations.ResetStateHoldsTheResetValuesAndTheInvariants : Prop :=
  (AfterReset .powerOn State.reset ∧
  (∀ p, State.reset.set p = PortalSet.default ∧ State.reset.baseOf p = .unconfigured ∧
    (State.reset.tripUnit p).overlay = false) ∧
  (∀ n, (State.reset.lampLine n).updates = [] ∧ (State.reset.lampLine n).tx = none ∧
    (State.reset.lampLine n).cursor = 15 ∧ (State.reset.lampLine n).down = false) ∧
  (∀ seat, (State.reset.queue seat).records.map EventRecord.event =
      [.restarted .powerOn, .storeInvalid] ∧ (State.reset.queue seat).seq = 2 ∧
    (State.reset.queue seat).mask = 0x3FFF#16 ∧ (State.reset.queue seat).attention = true) ∧
  State.reset.image = none ∧ State.reset.storing = none ∧
  (∀ c, State.reset.channel c = { hand := none, level := none, target := none, farewell := none }) ∧
  (∀ p z, State.reset.zone p z = none)) ∧
  (QueuesWf State.reset ∧ GrantsWf State.reset ∧ ClaimsWf State.reset ∧ TripsWf State.reset ∧
    UpdatesWf State.reset ∧ RingsWf State.reset ∧ MissesWf State.reset)

/-- What a zone that plans with no confirmation holds, and the targets it gives (R87, R88): `u` is the
state before the plan, `working` the working target and `on` the switched target it plans from. -/
def Sys2Proof.Machine.PlannedFrom (p : Fin 4) (z : Fin 5) (working : Nat) (on : Bool) (u t : State) :
    Prop :=
  let b := u.boostShare p z
  let boost : Prop := 0 < b ∧ 1000 - b < working
  let without := working * 1000 / (1000 - b)
  let there : Prop := ∀ k ∈ u.dimmed p z, (u.channel k.cfg.channel).hand = none →
    (u.channel k.cfg.channel).level = some (k.cfg.raised without)
  let zone (state : ZoneState) (switched : Bool) (overlap confirm : Option Nat) : Option Zone := some
    { state := state, working := working, latest := none, switched := switched, confirmed := false,
      overlap := overlap, confirm := confirm, degraded := false }
  (boost → t.zone p z = zone .boostOnWait true none (some (u.now + 2000))) ∧
  (¬ boost → 0 < b → on = true →
    (there → t.zone p z =
      zone .overlapOff true (some (u.now + (u.record p).overlap * 100)) none) ∧
    (¬ there → t.zone p z = zone .boostOffPrep true none none)) ∧
  (¬ boost → b = 0 ∨ on = false →
    (there → t.zone p z = zone .steady false none none) ∧
    (¬ there → t.zone p z = zone .ramping false none none)) ∧
  (∀ k ∈ u.dimmed p z,
    (boost → (t.channel k.cfg.channel).target =
      (u.channel k.cfg.channel).level.map k.cfg.raised) ∧
    (¬ boost → (t.channel k.cfg.channel).target = some (k.cfg.raised without))) ∧
  (∀ k ∈ (u.set p).switchedOf p z,
    (boost ∨ (0 < b ∧ on = true) → (t.channel k.cfg.channel).target = some 1000) ∧
    (¬ (boost ∨ (0 < b ∧ on = true)) → (t.channel k.cfg.channel).target = some 0))

/-- RESTART (R156): refused to Seats A and B; from Seat L it keeps the active sets, the image, the trips
and the lamp lines, with their update sets, transactions in progress and poll cursors (R141), and resets
the rest. A zone keeps its switched target as the commanded level of its switched channel, and plans
afresh toward the top stage unless its portal is TRIPPED (R109). The model's own readings here: the
times kept by timers, latches, the ramp and a store write (log 22), its stamp of acceptance (log 48),
the time of the overlay (log 35), the driver status kept with a station (log 31), and `out := []` in
every seat port (log 26). -/
def Obligations.RestartFromSeatLKeepsSetsTripsAndLines : Prop :=
  ∀ s : State,
    let on (p : Fin 4) (z : Fin 5) : Bool :=
      ((s.circuits p).find? fun k => k.cfg.zone == some z && k.cfg.switched).any fun k =>
        (s.channel k.cfg.channel).level.getD 0 != 0
    (∀ seat, seat ≠ .L → (s.port seat).phase = .header →
      exec (.restart seat) s = .next (denied seat .seatDenied 0 s)) ∧
    ((s.port .L).phase = .header →
      ∃ t, exec (.restart .L) s = .next t ∧ AfterReset .restart t ∧
        t.active = s.active ∧ t.image = s.image ∧ t.firePins = s.firePins ∧
        t.pending = s.pending ∧ t.freeIndex = s.freeIndex ∧
        t.storing = s.storing.map (fun w => { w with latest := w.latest - s.now, silenced := true }) ∧
        (∀ seat, t.queue seat =
          { records := [{ event := .restarted .restart, seq := 0, time := 0 }], seq := 1,
            overflowed := false, mask := 0x3FFF#16, attention := true }) ∧
        (∀ p, t.tripUnit p =
          { s.tripUnit p with
            debounce := (s.tripUnit p).debounce.map fun x => x - s.now
            fireLatch := (s.tripUnit p).fireLatch.map fun _ => 0
            orderLatch := (s.tripUnit p).orderLatch.map fun o => { o with time := 0 }
            overlayAt := if (s.tripUnit p).overlay then some 0 else none }) ∧
        (∀ n, (t.lampLine n).stations = (s.lampLine n).stations ∧
          (t.lampLine n).departed = (s.lampLine n).departed ∧
          (t.lampLine n).down = (s.lampLine n).down ∧
          ((s.lampLine n).tx = none → (s.lampLine n).updates = [] →
            (∀ a, rd (s.lampLine n).stations a = none) → t.lampLine n = s.lampLine n) ∧
          (∀ x ∈ (s.lampLine n).tx,
            (t.lampLine n).cursor = (s.lampLine n).cursor ∧
            (t.lampLine n).tx = some { x with
              phase := match x.phase with
                | .sending e => .sending (e - s.now)
                | .window e heard => .window (e - s.now) heard } ∧
            (s.lampLine n).updates.map Entry.addr <+: (t.lampLine n).updates.map Entry.addr ∧
            (∀ e ∈ (s.lampLine n).updates,
              (∀ k ∈ s.circuits n, k.cfg.switched = true → k.addr ≠ e.addr) →
              e ∈ (t.lampLine n).updates))) ∧
        (∀ c, (∀ q, ∀ k ∈ s.circuits q, k.cfg.channel = c → k.cfg.switched = false) →
          (t.channel c).level = (s.channel c).level) ∧
        (∀ p z zn, s.zone p z = some zn → s.tripped p →
          (∀ k, (s.set p).switchedOf p z = some k → s.only k) →
          t.zone p z = some
            { state := .held, working := rd ((s.set p).row (s.set p).top).levels z, latest := none,
              switched := on p z, confirmed := false, overlap := none, confirm := none,
              degraded := false }) ∧
        (∀ p z, ∀ zn ∈ s.zone p z, s.tripped p = false → (∀ k ∈ s.circuits p, s.only k) →
          PlannedFrom p z (rd ((s.set p).row (s.set p).top).levels z) (on p z)
            { s with
              now := 0, channels := tab fun c => { s.channel c with hand := none } } t) ∧
        (∀ p z, s.zone p z = none → t.zone p z = none))

/-! ### Frames (chapter 8) -/

/-- The model's choice (log 9): a command of a seat whose frame does not await its header, a record
of another length than R178 gives, and BAD_COMMAND with a code that names a command, are no events
of the part, and nothing changes. -/
def Obligations.SeatCommandsOutsideTheirFrameDoNothing : Prop :=
  ∀ (seat : Seat) (h : Header) (b : List Byte) (code : Byte) (s : State),
    ((s.port seat).phase ≠ .header →
      (∀ i ∈ [Instr.badCommand seat code, .nop seat, .read seat h, .write seat h b,
          .takeGrant seat h, .seizeGrant seat h, .releaseGrant seat h, .discard seat h, .store seat,
          .clearCondition seat], exec i s = .next s) ∧
      (∀ i ∈ [Instr.pushClaim seat h b, .withdraw seat h b, .takeChannel seat h b,
          .setChannel seat h b, .releaseChannel seat h b, .trip seat h b, .tripReset seat h b,
          .setSeat seat h b, .commit seat h], exec i s = done s) ∧
      (∀ i ∈ [Instr.withdrawAny seat h b, .restart seat],
        exec i s = if seat = .L then done s else .next s)) ∧
    (code.toNat < 20 → exec (.badCommand seat code) s = .next s) ∧
    ((s.port seat).phase ≠ .idle → exec (.frameBegin seat) s = .next s) ∧
    ((s.port seat).phase = .idle → ∀ cut, exec (.frameEnd seat cut) s = .next s) ∧
    (b.length ≠ 2 → exec (.trip seat h b) s = done s ∧ exec (.tripReset seat h b) s = done s ∧
      exec (.withdraw seat h b) s = done s) ∧
    (b.length ≠ 4 → exec (.setSeat seat h b) s = done s ∧ exec (.takeChannel seat h b) s = done s ∧
      exec (.setChannel seat h b) s = done s ∧ exec (.releaseChannel seat h b) s = done s) ∧
    (b.length ≠ 8 → exec (.pushClaim seat h b) s = done s)

/-- FRAME_BEGIN (R142): the outcome as it stands at the assertion of select is the preamble, laid out by
R177, and the port awaits the header; after the bytes of the preamble, of the turnaround or of a record,
filler of 0 is shifted out (R143, R176). The number of each result code, the command that each command
code names, with the header and the record bytes that follow it, the fields of the three further header
bytes, and the bits of a result value that is a portal mask (R177). BAD_COMMAND (R143, R149): A is
cleared, C, L and P are unchanged, and the rest is ignored. CLEAR_CONDITION and NOP (R155), with the
frame that carries a NOP serving the silence deadline. -/
def Obligations.FramesBeginAndSimpleCommandsEnd : Prop :=
  ((∀ (seat : Seat) (s : State), (s.port seat).phase = .idle →
    exec (.frameBegin seat) s = .next (s.setPort seat
      { s.port seat with
        phase := .header
        out := [byte (s.port seat).code.code,
                byte (flag (s.port seat).condition.a 0 + flag (s.port seat).condition.c 1 +
                  flag (s.port seat).condition.l 2 + flag (s.port seat).condition.p 3),
                byte ((s.port seat).value / 256), byte (s.port seat).value] })) ∧
  (∀ (x : SeatPort) (n : Nat),
    (∀ b, x.out[n]? = some b → x.shiftedOut n = b) ∧
    (x.out.length ≤ n → x.shiftedOut n = 0#8)) ∧
  (∀ (seat : Seat) (code target place count : Byte) (record : List Byte),
    let h : Header := { target := target, place := place, count := count }
    let commands : List Instr :=
      [.nop seat, .read seat h, .write seat h record, .pushClaim seat h record,
       .withdraw seat h record, .withdrawAny seat h record, .takeChannel seat h record,
       .setChannel seat h record, .releaseChannel seat h record, .trip seat h record,
       .tripReset seat h record, .takeGrant seat h, .seizeGrant seat h, .releaseGrant seat h,
       .commit seat h, .discard seat h, .store seat, .setSeat seat h record,
       .clearCondition seat, .restart seat]
    frameCommand seat (code :: target :: place :: count :: record) =
      some (commands[code.toNat]?.getD (.badCommand seat code))) ∧
  ([ResultCode.none, .ok, .short, .badCommand, .badObject, .badIndex, .badValue, .seatDenied,
      .notHolder, .held, .quota, .noClaim, .notOwner, .locked, .pendingBusy, .invalid, .storeBusy,
      .active, .notTripped].map ResultCode.code = List.range 19) ∧
  (∀ target place count : Byte,
    let h : Header := { target := target, place := place, count := count }
    h.portals = (([0, 1, 2, 3] : List (Fin 4)).filter fun p => target.toNat.testBit p.val) ∧
    h.cls = target.toNat % 32 ∧ h.owner = target.toNat / 32 ∧
    h.index = place.toNat % 64 ∧
    (place.toNat / 64 = 0 → h.stepping = some .ascend) ∧
    (place.toNat / 64 = 1 → h.stepping = some .descend) ∧
    (place.toNat / 64 = 2 → h.stepping = some .hold) ∧
    (place.toNat / 64 = 3 → h.stepping = none) ∧
    h.records = count.toNat) ∧
  (∀ (l : List (Fin 4)) (n : Nat),
    (maskOf l).testBit n = true ↔ ∃ p ∈ l, p.val = n) ∧
  (∀ (seat : Seat) (code : Byte) (s : State), (s.port seat).phase = .header → 20 ≤ code.toNat →
    exec (.badCommand seat code) s = .next (s.setPort seat
      { s.port seat with
        code := .badCommand, value := 0, phase := .tail, out := []
        condition := { (s.port seat).condition with a := false } }))) ∧
  (∀ (seat : Seat) (s : State), (s.port seat).phase = .header →
    exec (.clearCondition seat) s = .next (answer seat .ok 0 true (s.port seat).condition.c false
      (s.port seat).condition.p s) ∧
    exec (.nop seat) s = .next (answer seat .ok 0 true false (s.port seat).condition.l false s) ∧
    ∃ t, exec (.frameEnd seat .boundary)
        (answer seat .ok 0 true false (s.port seat).condition.l false s) = .next t ∧
      (t.port seat).silent = false ∧ (t.port seat).lastComplete = some s.tenths ∧
      (t.port seat).deadline =
        if (s.port seat).timeout = 0 then none else some (s.tenths + 10 * (s.port seat).timeout))

/-- FRAME_END after a command has ended (R151, R152): the frame is complete, the silence deadline is
set afresh, and a SILENT seat returns, which the other two seats are told. FRAME_END in the header
(R142, R144): void without a byte, SHORT inside the header, and SHORT after the header of a command
whose first record is not complete, unless R143 refused that header. FRAME_END in a transfer (R145,
R148, R149, R162): the transfer ends with OK and the number of its records done; the frame is
complete only at a record boundary. The model's choices: that the port of no frame has nothing to shift
out, `out := []` in every clause (log 26), that a release of select inside the first byte after the
frame's last event is one at that event (log 47), and that the bytes of a would-be record after the end
of its command are tail, so that the frame is complete (log 50). -/
def Obligations.ReleaseOfSelectEndsTheFrame : Prop :=
  (∀ (seat : Seat) (h : Header),
    let range := if h.cls = 18 then 12 else if h.cls = 19 then 16 else 4
    headerRefusal seat .write h =
      (if h.cls < 16 ∨ 20 ≤ h.cls ∨ (18 ≤ h.cls ∧ 4 ≤ h.owner) then some .badObject
       else if h.stepping = none ∨ h.records = 0 then some .badValue
       else if range ≤ h.index then some .badIndex
       else none) ∧
    headerRefusal seat .withdrawAny h = (if seat = .L then none else some .seatDenied) ∧
    ∀ c, c ≠ .write → c ≠ .withdrawAny → headerRefusal seat c h = none) ∧
  (∀ (seat : Seat) (cut : Cut) (s : State), (s.port seat).phase = .tail →
    ∃ t, exec (.frameEnd seat cut) s = .next t ∧
      t.port seat = (s.port seat).completed s.tenths ∧
      t.queue seat = s.queue seat ∧
      (∀ x, x ≠ seat → t.queue x =
        if (s.port seat).silent then (s.queue x).place (.seatResumed seat) s.uptime else s.queue x) ∧
      SameInside s t ∧ SameOtherPorts seat s t) ∧
  ((∀ (seat : Seat) (s : State), (s.port seat).phase = .header →
    let short : SeatPort :=
      { s.port seat with
        code := .short, value := 0, phase := .idle, out := []
        condition := { (s.port seat).condition with a := false } }
    exec (.frameEnd seat .boundary) s =
      .next (s.setPort seat { s.port seat with phase := .idle, out := [] }) ∧
    exec (.frameEnd seat .inside) s = .next (s.setPort seat short) ∧
    (∀ c h n, headerRefusal seat c h = none → n ≠ 0 →
      exec (.frameEnd seat (.firstRecord c h n)) s = .next (s.setPort seat short)) ∧
    (∀ c h, headerRefusal seat c h = none →
      ∃ t, exec (.frameEnd seat (.firstRecord c h 0)) s = .next t ∧
        t.port seat = short.completed s.tenths ∧ SameInside s t ∧ SameOtherPorts seat s t) ∧
    (∀ c h n code, headerRefusal seat c h = some code →
      ∃ t, exec (.frameEnd seat (.firstRecord c h n)) s = .next t ∧
        t.port seat = ((denied seat code 0 s).port seat).completed s.tenths ∧ SameInside s t ∧
        SameOtherPorts seat s t)) ∧
  (∀ (seat : Seat) (x : Transfer) (cut : Cut) (s : State),
    let ended (w : Condition) : SeatPort :=
      { s.port seat with
        code := .ok, value := x.done, condition := w, phase := .idle, out := [] }
    let read : SeatPort := ended { (s.port seat).condition with a := true }
    let write : SeatPort :=
      ended { a := true, c := decide (0 < x.done), l := (s.port seat).condition.l, p := false }
    (∀ shot, (s.port seat).phase = .reading x shot →
      (cut ≠ .boundary → exec (.frameEnd seat cut) s = .next (s.setPort seat read)) ∧
      (cut = .boundary → ∃ t, exec (.frameEnd seat cut) s = .next t ∧
        t.port seat = read.completed s.tenths ∧ SameInside s t ∧ SameOtherPorts seat s t)) ∧
    ((s.port seat).phase = .writing x →
      (cut ≠ .boundary → exec (.frameEnd seat cut) s = .next (s.setPort seat write)) ∧
      (cut = .boundary → ∃ t, exec (.frameEnd seat cut) s = .next t ∧
        t.port seat = write.completed s.tenths ∧ SameInside s t ∧ SameOtherPorts seat s t))))

/-- READ at its header (R143, R154): the checks in their order, and a transfer of the whole count,
after one turnaround byte of filler (R142, R177). READ_RECORD at the start of a record (R148): the
snapshot is what is shifted out, whole. READ_RECORD at the delivery of a record (R146, R148, R154,
R173): it is counted, an event queue record is popped from the seat's own queue, and the index test
for the next record is made. -/
def Obligations.ReadChecksItsHeaderAndDeliversItsRecords : Prop :=
  (∀ (seat : Seat) (h : Header) (s : State), (s.port seat).phase = .header →
    let bad (code : ResultCode) : State := s.setPort seat
      { s.port seat with
        code := code, value := 0, phase := .tail, out := []
        condition := { (s.port seat).condition with a := false } }
    let range := s.objectRange seat h.cls h.owner
    exec (.read seat h) s = .next
      (if 24 ≤ h.cls ∨ (h.cls ∈ [8, 9, 18, 19, 22, 23] ∧ 4 ≤ h.owner) then bad .badObject
       else match h.stepping with
        | none => bad .badValue
        | some x =>
          if h.records = 0 then bad .badValue
          else if range ≤ h.index then bad .badIndex
          else s.setPort seat
            { s.port seat with
              out := [0#8]
              phase := .reading { cls := h.cls, owner := h.owner, index := h.index, stepping := x,
                                  left := h.records, done := 0 } none })) ∧
  ((∀ (seat : Seat) (x : Transfer) (bytes : List Byte) (s : State),
    (s.port seat).phase = .reading x none →
    s.objectBytes seat x.cls x.owner x.index = some bytes →
    exec (.readRecord seat .start) s = .next (s.setPort seat
      { s.port seat with phase := .reading x (some bytes), out := bytes })) ∧
  (∀ (seat : Seat) (x : Transfer) (bytes : List Byte) (s : State),
    (s.port seat).phase = .reading x (some bytes) →
    let popped : State := if x.cls = 15 then s.setQueue seat (s.queue seat).pop else s
    let range := popped.objectRange seat x.cls x.owner
    let ended (code : ResultCode) (a : Bool) : State := popped.setPort seat
      { s.port seat with
        code := code, value := x.done + 1, phase := .tail, out := []
        condition := { (s.port seat).condition with a := a } }
    let next : Option Nat :=
      match x.stepping with
      | .ascend => some (x.index + 1)
      | .descend => if x.index = 0 then none else some (x.index - 1)
      | .hold => some x.index
    (x.left ≤ 1 → exec (.readRecord seat .delivery) s = .next (ended .ok true)) ∧
    (∀ i, 1 < x.left → next = some i → i < range →
      exec (.readRecord seat .delivery) s = .next (popped.setPort seat
        { s.port seat with
          out := []
          phase := .reading { x with index := i, left := x.left - 1, done := x.done + 1 } none })) ∧
    (1 < x.left → (∀ i, next = some i → range ≤ i) →
      exec (.readRecord seat .delivery) s = .next (ended .badIndex false))))

/-- A record laid out field by field (R176): each field's width in bytes, and its value. -/
def Sys2Proof.Machine.layout (fields : List (Nat × Nat)) : List Byte :=
  fields.flatMap fun f => match f with
    | (1, v) => [byte v]
    | (2, v) => [byte (v / 256), byte v]
    | (4, v) => [byte (v / 16777216), byte (v / 65536), byte (v / 256), byte v]
    | (n, _) => List.replicate n 0#8

/-- A byte of flags, bit 0 first, as a number. -/
def Sys2Proof.Machine.flagByte : List Bool → Nat
  | [] => 0
  | b :: rest => (if b then 1 else 0) + 2 * flagByte rest

/-- What a READ delivers (R154, R178, R179): the index range of every object class, its records
field by field at their widths, an absent record as zeros, the entry of a list that has gone as no
record, and the codes of enumerated fields (R176). The model's choices that the records show: times
remaining are rounded down (log 30), pending rows at or above the count are empty rows (log 36), the
ramp direction in HAND and of a TRIPPED portal, and the type and direction bits of an unassigned channel
(log 39), bits that R178 does not name are 0 (log 49), a channel that has joined again shows its
new place alone (log 40), a replaced channel shows its new address beside the entry bit of its old one
(log 45), and of several farewells of a channel the oldest of the lowest line is shown (log 46). -/
def Obligations.ReadDeliversTheRecordsOfItsClass : Prop :=
  ∀ (s : State) (seat : Seat) (owner : Nat),
    let object (cls index : Nat) (fields : List (Nat × Nat)) : Prop :=
      s.objectBytes seat cls owner index = some (layout fields)
    let seats (x : Option Seat) : Nat := (x.map fun x => (seatIx x).val).getD 255
    let rest (timer : Option Nat) : Nat := (timer.map fun t => (t - s.now) / 100).getD 0
    let row (r : StageRow) : List (Nat × Nat) :=
      [(2, r.rise.getD 65535), (2, r.fall.getD 65535), (2, r.dwell), (2, rd r.levels 0),
       (2, rd r.levels 1), (2, rd r.levels 2), (2, rd r.levels 3), (2, rd r.levels 4)]
    let record (r : PortalRecord) : List (Nat × Nat) :=
      [(1, flagByte [r.enabled, r.activeLow, r.fireArmed, r.lineArmed]),
       (1, flagByte [rd r.zones 0, rd r.zones 1, rd r.zones 2, rd r.zones 3, rd r.zones 4]),
       (1, (r.slot0.map Fin.val).getD 255), (1, (r.slot1.map Fin.val).getD 255), (1, r.k),
       (1, r.window), (1, r.tStale), (1, r.overlap), (2, r.tHold), (2, r.upRate), (2, r.downRate),
       (2, rd r.boost 0), (2, rd r.boost 1), (2, rd r.boost 2), (2, rd r.boost 3),
       (2, rd r.boost 4)]
    let slot (x : Option ChannelRecord) : List (Nat × Nat) :=
      match x with
      | none => [(4, 0), (4, 0)]
      | some r =>
        [(1, flagByte [true, r.switched]), (1, r.channel.val), (1, (r.zone.map Fin.val).getD 7),
         (1, 0), (2, r.failLevel), (2, r.minLevel)]
    let sets (first : Nat) (q : Fin 4) (x : Option PortalSet) : Prop :=
      (x = none →
        object first q.val [(24, 0)] ∧ object (first + 1) q.val [(2, 0)] ∧
        (owner = q.val → ∀ i, object (first + 2) i [(16, 0)] ∧ object (first + 3) i [(8, 0)])) ∧
      (∀ y ∈ x,
        object first q.val (record y.record) ∧
        object (first + 1) q.val [(1, y.stageCount), (1, 0)] ∧
        (owner = q.val →
          (∀ i : Fin 12, object (first + 2) i.val (row (rd y.rows i))) ∧
          (∀ i : Fin 16, object (first + 3) i.val (slot (rd y.slots i)))))
    -- the index ranges (R154, R158)
    ((∀ x ∈ [(0, 1), (1, 3), (2, 4), (3, 8), (5, 4), (6, 4), (7, 4), (10, 4), (11, 20), (12, 32),
        (13, 4), (14, 4), (16, 4), (17, 4), (18, 12), (19, 16), (20, 4), (21, 4), (22, 12),
        (23, 16)], s.objectRange seat x.1 owner = x.2) ∧
      (∀ m : Fin 8, owner = m.val → s.objectRange seat 4 owner = (s.meter m).ring.length) ∧
      (∀ p : Fin 4, owner = p.val → s.objectRange seat 8 owner = (s.set p).stageCount ∧
        s.objectRange seat 9 owner = (s.arbiter p).claims.length) ∧
      s.objectRange seat 15 owner = if (s.queue seat).records = [] then 0 else 1) ∧
    -- part and seat
    object 0 0
      [(4, s.uptime), (1, s.resetCause.code),
       (1, if s.storing ≠ none then 2 else if s.image ≠ none then 0 else 1), (2, 0)] ∧
    (∀ x : Seat, object 1 (seatIx x).val
      [(1, if (s.port x).silent then 1 else 0), (1, flagByte [(s.port x).lastComplete.isSome]),
       (2, (s.port x).timeout), (2, ((s.port x).deadline.map fun d => d - s.tenths).getD 0),
       (2, (s.queue x).mask.toNat), (1, (s.queue x).records.length), (3, 0),
       (4, (s.port x).lastComplete.getD 0)]) ∧
    -- portals
    (∀ p : Fin 4,
      let e := s.edit p
      let v := s.eval p
      let l := s.selector p
      let a := s.arbiter p
      let u := s.tripUnit p
      let n := s.lampLine p
      let number (c : Option Claim) : Nat := (c.map Claim.number).getD 0
      let newest (kind : ClaimKind) (stage : Nat) : Option Claim :=
        a.claims.reverse.find? fun c => c.kind == kind && min (c.argument.getD 0) a.top == stage
      let count (x : Seat) : Nat := (a.claims.filter fun c => c.seat == x).length
      object 2 p.val
        [(1, (s.baseOf p).code), (1, flagByte [u.overlay, e.pendingSet.isSome]), (1, seats e.holder),
         (1, match e.shadow with | none => 0 | some x => if x.locked then 2 else 1),
         (1, seats (e.pendingSet.map PendingSet.seat)), (3, 0),
         (4, (e.pendingSet.map PendingSet.time).getD 0)] ∧
      object 5 p.val
        [(1, v.status.code), (1, v.source.status.code), (2, v.luminance), (2, v.demand),
         (2, rest (v.holdSince.map fun t => t + (s.record p).tHold * 1000)),
         (1, if v.mismatchReported then 2 else if v.mismatchSince ≠ none then 1 else 0), (1, 0),
         (2, (v.mismatchSince.map fun t => (s.now - t) / 100).getD 0)] ∧
      object 6 p.val
        [(1, if l.following then 1 else 0), (1, l.automatic), (1, (s.set p).stageCount - 1), (1, 0),
         (2, l.demandInUse.getD 65535), (2, rest l.dwell), (4, l.enteredAt)] ∧
      object 7 p.val [(1, (s.set p).stageCount), (1, 0)] ∧
      object 10 p.val
        [(1, a.effective), (1, a.automatic), (1, a.top), (1, a.heldStage),
         (2, number (a.claims.reverse.find? fun c => c.kind == .force || c.kind == .freeze)),
         (1, a.floor), (1, a.cap), (2, number (newest .floor a.floor)), (2, number (newest .cap a.cap)),
         (1, a.claims.length), (1, count .A), (1, count .B), (1, count .L), (2, s.claimCounter),
         (2, 0)] ∧
      object 13 p.val
        [(1, if n.down then 1 else 0),
         (1, match n.tx with | none => 0 | some x => if x.level.isSome then 1 else 2),
         (1, (n.tx.map fun x => x.addr.val).getD 255), (1, n.cursor.val),
         (1, (allAddrs.filter fun i => (rd n.stations i).isSome).length),
         (1, (allAddrs.filter fun i => (rd n.stations i).any fun t => t.misses == 3).length),
         (1, n.updates.length), (1, (n.updates.filter fun y => y.departing.isSome).length)] ∧
      object 14 p.val
        [(1, flagByte [u.overlay, (s.record p).fireArmed, (s.record p).lineArmed, u.fireLevel,
            u.debounced, u.fireLatch.isSome, u.orderLatch.isSome,
            (s.record p).lineArmed && u.lineDown && s.baseOf p != .unconfigured]),
         (1, flagByte [u.sources.fire, u.sources.line, u.sources.order]),
         (1, if u.lineDown then 1 else 0), (1, seats (u.orderLatch.map OrderLatch.seat)),
         (1, (u.orderLatch.map OrderLatch.reason).getD 0), (1, flagByte [u.overlayAt.isSome]),
         (2, rest u.debounce), (4, u.overlayAt.getD 0), (4, u.fireLatch.getD 0),
         (4, (u.orderLatch.map OrderLatch.time).getD 0)] ∧
      (∀ z : Fin 5, object 11 (5 * p.val + z.val)
        (match s.zone p z with
          | none => [(1, 0), (1, 255), (2, 65535), (2, 65535), (2, 65535), (2, 65535), (2, 65535)]
          | some zn =>
            let b := s.boostShare p z
            let boost : Bool := decide (0 < b ∧ 1000 - b < zn.working)
            [(1, flagByte [true, boost, zn.switched, zn.confirmed, zn.degraded]),
             (1, zn.state.code), (2, zn.working), (2, zn.latest.getD 65535),
             (2, if boost then zn.working - b else zn.working), (2, rest zn.overlap),
             (2, rest zn.confirm)])) ∧
      (owner = p.val →
        (∀ i : Fin 12, i.val < (s.set p).stageCount → object 8 i.val (row (rd (s.set p).rows i))) ∧
        (∀ i, (s.set p).stageCount ≤ i → s.objectBytes seat 8 owner i = none) ∧
        (∀ i c, a.claims[i]? = some c → object 9 i
          [(2, c.number), (1, (seatIx c.seat).val), (1, c.kind.code), (2, c.argument.getD 65535),
           (1, c.captured.getD 255), (1, flagByte [c.kept, c.deadline.isSome]),
           (4, (c.deadline.map fun d => d - s.tenths).getD 0), (4, c.pushedAt)]) ∧
        (∀ i, a.claims.length ≤ i → s.objectBytes seat 9 owner i = none)) ∧
      sets 16 p (e.shadow.map Shadow.set) ∧ sets 20 p (e.pendingSet.map PendingSet.set)) ∧
    -- meters
    (∀ m : Fin 8,
      let x := s.meter m
      object 3 m.val
        [(1, x.state.code),
         (1, if x.state = .unused then 255 else ((s.meterPortal m).map Fin.val).getD 255),
         (2, x.estimate.getD 65535), (1, x.badCount),
         (1, flagByte [x.window, x.heater, !x.ring.isEmpty]), (2, x.lastSeq.getD 65535),
         (1, x.ring.length), (3, 0), (4, (x.ring.getLast?.map Reading.arrival).getD 0)] ∧
      (owner = m.val →
        (∀ i r, x.ring[i]? = some r →
          object 4 i [(1, r.seq), (1, 0), (2, r.luminance), (4, r.arrival)]) ∧
        (∀ i, x.ring.length ≤ i → s.objectBytes seat 4 owner i = none))) ∧
    -- channels
    (∀ c : Fin 32,
      let ch := s.channel c
      let k := s.assignment c
      let v := s.lineView c
      let st := v.bind LineView.status
      object 12 c.val
        [(1, (k.map fun k => k.portal.val).getD 255),
         (1, (k.map fun k => (k.cfg.zone.map Fin.val).getD 7).getD 255),
         (1, (k.map fun k => k.addr.val).getD 255),
         (1, flagByte [k.any fun k => k.cfg.switched, ch.hand.isSome] + 4 *
            (match ch.level, ch.target with
              | some a, some b => if a < b then 1 else if b < a then 2 else 0
              | _, _ => 0)),
         (1, seats (ch.hand.map Hand.seat)), (1, (v.map LineView.misses).getD 255),
         (2, (ch.hand.map Hand.level).getD 65535), (2, ch.level.getD 65535),
         (2, ch.target.getD 65535),
         (1, flagByte [v.any fun x => x.misses == 3, v.any LineView.entry, v.any LineView.farewell,
            st.isSome, st.any DriverStatus.lamp, st.any DriverStatus.supply,
            st.any DriverStatus.closed]), (1, 0), (2, (st.map DriverStatus.level).getD 65535),
         (4, (st.map DriverStatus.time).getD 0)] ∧
      (∀ j t, k = some j → rd (s.lampLine j.portal).stations j.addr = some t → t.channel = c →
        v = some
          { misses := t.misses, status := t.status, farewell := false
            entry := (s.lampLine j.portal).updates.any fun e => e.addr == j.addr }) ∧
      (∀ n d, (k = none ∧ (∀ q, q < n → ∀ y ∈ (s.lampLine q).departed, y.channel ≠ c) ∨
          ∃ j, k = some j ∧ j.portal = n ∧ (s.lampLine n).carries j.addr c = false) →
        ((s.lampLine n).departed.find? fun y => y.channel == c) = some d →
        v = some
          { misses := d.misses, status := d.status, farewell := true
            entry := (s.lampLine n).updates.any fun e => e.addr == d.addr }) ∧
      (k = none → (∀ n, ∀ y ∈ (s.lampLine n).departed, y.channel ≠ c) → v = none)) ∧
    -- the seat's own event queue, with the catalogue of section 10.2
    (∀ r rest, (s.queue seat).records = r :: rest →
      let about (reason : Nat) (portal : Nat) (subject : Nat × Nat) (values : List Nat) : Prop :=
        object 15 0
          [(1, r.event.kind), (1, reason), (2, r.seq), (4, r.time), (1, portal), (1, subject.1),
           (2, subject.2), (2, values.getD 0 0), (2, values.getD 1 0), (2, values.getD 2 0),
           (2, values.getD 3 0)]
      let bit (x : Bool) : Nat := if x then 1 else 0
      match r.event with
      | .restarted c => r.event.kind = 0 ∧ about c.code 255 (0, 0) []
      | .storeInvalid => r.event.kind = 1 ∧ about 255 255 (0, 0) []
      | .overflow k => r.event.kind = 2 ∧ about k 255 (0, 0) []
      | .meterFlags m w h => r.event.kind = 3 ∧ about 255 255 (1, m.val) [bit w, bit h]
      | .meterState p m c a b => r.event.kind = 4 ∧ about c.code p.val (1, m.val) [a.code, b.code]
      | .sourceChanged p x => r.event.kind = 5 ∧ about 255 p.val (0, 0) [x.code]
      | .mismatch p a x b y => r.event.kind = 6 ∧ about 255 p.val (0, 0) [a.val, x, b.val, y]
      | .stageChanged p a b c => r.event.kind = 7 ∧ about 255 p.val (0, 0) [a, b, c]
      | .channelFault p c x => r.event.kind = 8 ∧ about x.code p.val (2, c.val) []
      | .channelOk p c x => r.event.kind = 9 ∧ about x.code p.val (2, c.val) []
      | .lineState n x => r.event.kind = 10 ∧ about 255 n.val (3, n.val) [bit x]
      | .fireInput p x => r.event.kind = 11 ∧ about 255 p.val (0, 0) [bit x]
      | .tripped p x y => r.event.kind = 12 ∧
          about x.code p.val (0, 0) [flagByte [y.fire, y.line, y.order]]
      | .tripCleared p => r.event.kind = 13 ∧ about 255 p.val (0, 0) []
      | .seatSilent x => r.event.kind = 14 ∧ about 255 255 (4, (seatIx x).val) []
      | .seatResumed x => r.event.kind = 15 ∧ about 255 255 (4, (seatIx x).val) []
      | .adopted p x => r.event.kind = 16 ∧ about 255 p.val (0, 0) [(seatIx x).val]
      | .claimExpired p n k => r.event.kind = 17 ∧ about 255 p.val (5, n) [k.code]
      | .claimRemoved p n k x => r.event.kind = 18 ∧ about (bit x) p.val (5, n) [k.code]
      | .handReleased p c x => r.event.kind = 19 ∧ about x.code p.val (2, c.val) []
      | .grantLost p x => r.event.kind = 20 ∧ about (bit x) p.val (0, 0) []
      | .storeDone => r.event.kind = 21 ∧ about 255 255 (0, 0) []
      | .storeFailed => r.event.kind = 22 ∧ about 255 255 (0, 0) []) ∧
    -- the codes of enumerated fields (R176)
    ([ResetCause.powerOn, .resetLine, .restart].map ResetCause.code = [0, 1, 2] ∧
      [Seat.A, .B, .L].map (fun x => (seatIx x).val) = [0, 1, 2] ∧
      [BaseState.unconfigured, .starting, .running].map BaseState.code = [0, 1, 2] ∧
      [MeterState.unused, .starting, .valid, .stale, .faulted].map MeterState.code =
        [0, 1, 2, 3, 4] ∧
      [SourceStatus.none, .live, .hold, .lost, .injected].map SourceStatus.code = [0, 1, 2, 3, 4] ∧
      [MeterSource.none, .live, .hold, .lost].map (fun x => x.status.code) = [0, 1, 2, 3] ∧
      [ClaimKind.force, .floor, .cap, .freeze, .inject].map ClaimKind.code = [0, 1, 2, 3, 4] ∧
      [ZoneState.steady, .ramping, .boostOnWait, .overlapOn, .boostOffPrep, .overlapOff,
        .held].map ZoneState.code = [0, 1, 2, 3, 4, 5, 6] ∧
      [TripSource.fire, .line, .order].map TripSource.code = [0, 1, 2] ∧
      [MeterCause.bound, .unbound, .readings, .timeout, .sensor, .range, .recovered].map
        MeterCause.code = [0, 1, 2, 3, 4, 5, 6] ∧
      [FaultReason.lost, .boostUnconfirmed, .lamp, .supply].map FaultReason.code = [0, 1, 2, 3] ∧
      [OkReason.reply, .boostConfirmed, .lamp, .supply].map OkReason.code = [0, 1, 2, 3] ∧
      [ReleaseCause.released, .silence, .adoption].map ReleaseCause.code = [0, 1, 2])

/-- SET_SEAT (R153): the checks, and the new timeout, deadline and mask. Two readings of the model:
a new deadline that equals the present stamp has already passed (log 15), and at a seat that is
SILENT already a deadline that has passed only stops (log 25). -/
def Obligations.SetSeatReplacesTimeoutAndMask : Prop :=
  ∀ (seat : Seat) (h : Header) (bytes : List Byte) (s : State),
    (s.port seat).phase = .header → bytes.length = 4 →
    let timeout := wordAt bytes 0
    let deadline : Option Nat :=
      if timeout = 0 then none else some ((s.port seat).lastComplete.getD 0 + 10 * timeout)
    let set : State :=
      (s.setPort seat { s.port seat with timeout := timeout, deadline := deadline }).setQueue seat
        { s.queue seat with mask := BitVec.ofNat 16 (wordAt bytes 2 % 16384) }
    (h.records ≠ 1 → exec (.setSeat seat h bytes) s = done (denied seat .badValue 0 s)) ∧
    (h.records = 1 → 600 < timeout →
      exec (.setSeat seat h bytes) s = done (denied seat .badValue 1 s)) ∧
    (h.records = 1 → timeout ≤ 600 → (∀ d, deadline = some d → s.tenths < d) →
      exec (.setSeat seat h bytes) s = done (granted seat 0 false set)) ∧
    (h.records = 1 → timeout ≤ 600 → (∃ d, deadline = some d ∧ d ≤ s.tenths) →
      (s.port seat).silent = false →
      exec (.setSeat seat h bytes) s = done (granted seat 0 false (silence seat set))) ∧
    (h.records = 1 → timeout ≤ 600 → (∃ d, deadline = some d ∧ d ≤ s.tenths) →
      (s.port seat).silent = true →
      exec (.setSeat seat h bytes) s = done (granted seat 0 false
        (set.setPort seat { set.port seat with deadline := none })))

/-- Portal `p` in `t`, once the claims that meet `gone` have left its list in `s` (R29, R30, R75): if the
topmost INJECT claim is not among them, the Portal Evaluator is as it was. Else it has evaluated: the
topmost of the INJECT claims that remain gives A and the status INJECTED, and where none remains the source
status is the meter source. -/
def Sys2Proof.Machine.InjectionAfter (p : Fin 4) (gone : Claim → Bool) (s t : State) : Prop :=
  let claims := (s.arbiter p).claims
  let topmost (l : List Claim) : Option Claim := l.reverse.find? fun c => c.kind == .inject
  let remaining := claims.filter fun c => !gone c
  ((topmost claims).any gone = false → t.eval p = s.eval p) ∧
  ((topmost claims).any gone = true →
    (∀ c, topmost remaining = some c → (t.eval p).status = .injected ∧
      (t.eval p).luminance = c.argument.getD 0 ∧
      (t.eval p).demand = c.argument.getD 0 * (s.record p).k / 100) ∧
    (topmost remaining = none → (t.eval p).status = (s.eval p).source.status))

/-- SEAT_SILENT (R151): an ACTIVE seat whose deadline passes becomes SILENT and gives back its TIED
claims, its hand channels and its grants; with nothing to give back, only the other seats are told.
The seat is told of each claim, channel and grant with cause SILENCE (R81, R106, R161), and a portal that
loses its topmost INJECT claim is evaluated (R75). The model's choices: the order of those records, and
their place among what the portals post when claims leave them (log 13). -/
def Obligations.SilenceGivesBackClaimsChannelsAndGrants : Prop :=
  ∀ (seat : Seat) (d : Nat) (s : State), (s.port seat).silent = false →
    (s.port seat).deadline = some d → d ≤ s.tenths →
    (∃ t, exec (.seatSilent seat) s = .next t ∧
      t.port seat = { s.port seat with silent := true, deadline := none } ∧
      (∀ p, (t.arbiter p).claims =
        (s.arbiter p).claims.filter fun c => !(c.seat == seat && !c.kept)) ∧
      (∀ p, InjectionAfter p (fun c => c.seat == seat && !c.kept) s t) ∧
      (∀ p, t.edit p =
        if (s.edit p).holder = some seat then { s.edit p with holder := none, shadow := none }
        else s.edit p) ∧
      (∀ c k h, s.assignment c = some k → (s.channel c).hand = some h →
        (t.channel c).hand = if h.seat = seat then none else some h) ∧
      SameClock s t ∧ t.active = s.active ∧ t.image = s.image ∧ t.storing = s.storing ∧
      SameMeters s t ∧ SameTrips s t ∧ SameOtherPorts seat s t ∧
      -- what is posted, each portal's changes of stage and source status among it
      let tied (p : Fin 4) : List Claim :=
        (s.arbiter p).claims.filter fun c => c.seat == seat && !c.kept
      let removed (p : Fin 4) : List Event :=
        (tied p).map fun c => .claimRemoved p c.number c.kind true
      let freed : List Event := (List.finRange 32).filterMap fun c =>
        match s.assignment c with
        | some k =>
          if (s.channel c).hand.any fun h => h.seat == seat then
            some (.handReleased k.portal c .silence)
          else none
        | none => none
      let lost : List Event :=
        (([0, 1, 2, 3] : List (Fin 4)).filter fun p => (s.edit p).holder == some seat).map fun p =>
          .grantLost p true
      let placed (x : Seat) (l : List Event) : EventQueue :=
        l.foldl (fun q e => q.place e s.uptime) (s.queue x)
      ∃ follow : Fin 4 → List Event,
        (∀ p, tied p = [] → follow p = []) ∧
        (∀ p, ∀ e ∈ follow p, (∃ a b c, e = .stageChanged p a b c) ∨ ∃ x, e = .sourceChanged p x) ∧
        t.queue seat = placed seat
          (removed 0 ++ follow 0 ++ removed 1 ++ follow 1 ++ removed 2 ++ follow 2 ++ removed 3 ++
            follow 3 ++ freed ++ lost) ∧
        ∀ x, x ≠ seat → t.queue x = placed x
          (.seatSilent seat :: follow 0 ++ follow 1 ++ follow 2 ++ follow 3)) ∧
    ((∀ p, ∀ c ∈ (s.arbiter p).claims, c.seat = seat → c.kept = true) →
      (∀ c h, (s.channel c).hand = some h → h.seat ≠ seat) →
      (∀ p, (s.edit p).holder ≠ some seat) →
      exec (.seatSilent seat) s = done (postOthers seat (.seatSilent seat)
        (s.setPort seat { s.port seat with silent := true, deadline := none })))

/-! ### The Event Unit (chapter 10) -/

/-- Placing an event in a seat's queue (R170 to R172, R174): the mask, the number, the limit of 31
records and the OVERFLOW record. The pop of the head record (R172 to R174): the records are the
tail, the overflow state ends when the OVERFLOW record goes, and the attention line is deasserted
when the queue is empty. -/
def Obligations.EventsArePlacedAndPopped : Prop :=
  (∀ (q : EventQueue) (e : Event) (time : Nat),
    let out : Bool := decide (3 ≤ e.kind ∧ e.kind ≤ 16) && !q.mask.getLsbD (e.kind - 3)
    let taken : EventQueue := { q with seq := (q.seq + 1) % 65536 }
    (out = true → q.place e time = q) ∧
    (out = false → q.overflowed = true → q.place e time = taken) ∧
    (out = false → q.overflowed = false → q.records.length < 31 →
      q.place e time =
        { taken with
          records := q.records ++ [{ event := e, seq := q.seq, time := time }]
          attention := q.attention || q.records.isEmpty }) ∧
    (out = false → q.overflowed = false → 31 ≤ q.records.length →
      q.place e time =
        { taken with
          records := q.records ++ [{ event := .overflow e.kind, seq := q.seq, time := time }]
          overflowed := true
          attention := q.attention || q.records.isEmpty })) ∧
  (∀ (q : EventQueue) (r : EventRecord) (rest : List EventRecord), q.records = r :: rest →
    q.pop =
      { q with
        records := rest
        overflowed := q.overflowed && !r.isOverflow
        attention := q.attention && !rest.isEmpty })

/-- Every event queue stays as R169 to R174 describe it. -/
def Obligations.EveryStepKeepsTheQueuesWellFormed : Prop :=
  ∀ s t : State, QueuesWf s → step s = .next t → QueuesWf t

/-! ### Grants, editing and commits (chapter 9) -/

/-- A copy of a set (R40, R158, R164): its portal record, its stage count, its channel slots and the rows
below its stage count, with empty rows at and above it. -/
def Sys2Proof.Machine.PortalSet.copied (x : PortalSet) : PortalSet :=
  { record := x.record, stageCount := x.stageCount, slots := x.slots
    rows := tab fun i =>
      if i.val < x.stageCount then rd x.rows i
      else { rise := none, fall := none, dwell := 0, levels := Vector.replicate 5 0 } }

/-- TAKE_GRANT (R159): all or nothing, with an EDITABLE copy of the active set for each portal newly
granted. RELEASE_GRANT (R161): all or nothing; the shadow is dropped and a pending set stays. -/
def Obligations.TakeAndReleaseGrantAreAllOrNothing : Prop :=
  (∀ (seat : Seat) (h : Header) (s : State), (s.port seat).phase = .header →
    (h.portals = [] → exec (.takeGrant seat h) s = .next (denied seat .badValue 0 s)) ∧
    (∀ p, h.portals.find? (s.heldByOther seat) = some p →
      exec (.takeGrant seat h) s = .next (denied seat .held p.val s)) ∧
    (h.portals ≠ [] → (∀ p ∈ h.portals, ∀ x, (s.edit p).holder = some x → x = seat) →
      ∃ t, exec (.takeGrant seat h) s = .next
          (granted seat (maskOf (h.portals.filter s.grantFree)) false t) ∧
        (∀ p, t.edit p =
          if p ∈ h.portals ∧ (s.edit p).holder = none then
            { s.edit p with holder := some seat
                            shadow := some { set := (s.set p).copied, locked := false } }
          else s.edit p) ∧
        { t with edits := s.edits } = s)) ∧
  (∀ (seat : Seat) (h : Header) (s : State), (s.port seat).phase = .header →
    (h.portals = [] → exec (.releaseGrant seat h) s = .next (denied seat .badValue 0 s)) ∧
    (∀ p, (h.portals.find? fun q => !s.holdsGrant seat q) = some p →
      exec (.releaseGrant seat h) s = .next (denied seat .notHolder p.val s)) ∧
    (h.portals ≠ [] → (∀ p ∈ h.portals, (s.edit p).holder = some seat) →
      ∃ t, exec (.releaseGrant seat h) s = .next (granted seat 0 false t) ∧
        (∀ p, t.edit p =
          if p ∈ h.portals then { s.edit p with holder := none, shadow := none } else s.edit p) ∧
        { t with edits := s.edits } = s))

/-- SEIZE_GRANT (R143, R160): refused to Seats A and B; a grant of A or B is taken with a fresh copy
of the active set, and its former holder is told. That the GRANT_LOST(SEIZED) records of several
portals stand in ascending order of portal number is the model's choice (log 38). -/
def Obligations.SeizeGrantTakesTheGrantForSeatL : Prop :=
  ∀ (h : Header) (s : State),
    (∀ seat, seat ≠ .L → (s.port seat).phase = .header →
      exec (.seizeGrant seat h) s = .next (denied seat .seatDenied 0 s)) ∧
    ((s.port .L).phase = .header → h.portals = [] →
      exec (.seizeGrant .L h) s = .next (denied .L .badValue 0 s)) ∧
    ((s.port .L).phase = .header → h.portals ≠ [] →
      ∃ t, exec (.seizeGrant .L h) s = .next
          (granted .L (maskOf (h.portals.filter (s.heldByOther .L))) false t) ∧
        (∀ p, t.edit p =
          if p ∈ h.portals ∧ (s.edit p).holder ≠ some .L then
            { s.edit p with holder := some .L
                            shadow := some { set := (s.set p).copied, locked := false } }
          else s.edit p) ∧
        { t with edits := s.edits, queues := s.queues } = s ∧
        t.queue .L = s.queue .L ∧
        (∀ seat, seat ≠ .L → t.queue seat =
          (h.portals.filter fun p => (s.edit p).holder == some seat).foldl
            (fun q p => q.place (.grantLost p false) s.uptime) (s.queue seat)))

/-- A portal's shadow exists exactly while its grant is held, after every step (R158). -/
def Obligations.EveryStepKeepsShadowsWithGrants : Prop :=
  ∀ s t : State, GrantsWf s → step s = .next t → GrantsWf t

/-- Whether a command is the record of a transfer of a WRITE: the first with its header, or a later
one. -/
def Sys2Proof.Machine.WriteRecordAt (i : Instr) (seat : Seat) (x : Transfer) (bytes : List Byte)
    (s : State) : Prop :=
  bytes.length = shadowRecordBytes x.cls ∧
    ((∃ h, i = .write seat h bytes ∧ (s.port seat).phase = .header ∧ writeTransfer h = .ok x) ∨
      (i = .writeRecord seat bytes ∧ (s.port seat).phase = .writing x))

/-- WRITE at its header (R143, R158): classes 16 to 19, the stepping, the count and the index range.
A record of a WRITE that the Set Store refuses (R147, R162) ends the transfer with its code and the
number of records accepted before it, which stay. A record of a WRITE that the Set Store accepts
(R146, R147, R162) replaces the shadow record at its index; the transfer then ends, or waits for the
next record. The portal is the one that the index names for the portal record and the table header, and
that the object number names for stage rows and channel slots (R158). -/
def Obligations.WriteChecksItsHeaderAndItsRecords : Prop :=
  (∀ (seat : Seat) (h : Header) (bytes : List Byte) (s : State), (s.port seat).phase = .header →
    let range := if h.cls = 18 then 12 else if h.cls = 19 then 16 else 4
    let deny (code : ResultCode) : Prop := exec (.write seat h bytes) s = .next (denied seat code 0 s)
    (h.cls < 16 ∨ 20 ≤ h.cls ∨ (18 ≤ h.cls ∧ 4 ≤ h.owner) → deny .badObject) ∧
    (16 ≤ h.cls → h.cls < 20 → (18 ≤ h.cls → h.owner < 4) →
      (h.stepping = none ∨ h.records = 0 → deny .badValue) ∧
      (h.stepping ≠ none → h.records ≠ 0 → range ≤ h.index → deny .badIndex) ∧
      (∀ x, h.stepping = some x → h.records ≠ 0 → h.index < range →
        writeTransfer h =
          .ok { cls := h.cls, owner := h.owner, index := h.index, stepping := x,
                left := h.records, done := 0 }))) ∧
  ((∀ (i : Instr) (seat : Seat) (x : Transfer) (p : Fin 4) (bytes : List Byte) (s : State),
    WriteRecordAt i seat x bytes s →
    p.val = (if x.cls = 16 ∨ x.cls = 17 then x.index else x.owner) →
    let e := s.edit p
    let ends (code : ResultCode) : Prop :=
      exec i s = .next (answer seat code x.done false (decide (0 < x.done)) (s.raisedFlag seat) false s)
    (e.holder ≠ some seat ∨ e.shadow = none → ends .notHolder) ∧
    (∀ set, e.holder = some seat → e.shadow = some { set := set, locked := true } → ends .locked) ∧
    (∀ set, e.holder = some seat → e.shadow = some { set := set, locked := false } →
      set.writeRecord x bytes = none → ends .badValue)) ∧
  (∀ (i : Instr) (seat : Seat) (x : Transfer) (p : Fin 4) (bytes : List Byte) (s : State)
      (old new : PortalSet),
    WriteRecordAt i seat x bytes s →
    p.val = (if x.cls = 16 ∨ x.cls = 17 then x.index else x.owner) →
    (s.edit p).holder = some seat →
    (s.edit p).shadow = some { set := old, locked := false } →
    old.writeRecord x bytes = some new →
    let written : State :=
      s.setEdit p { s.edit p with shadow := some { set := new, locked := false } }
    let range := if x.cls = 18 then 12 else if x.cls = 19 then 16 else 4
    let next : Option Nat :=
      match x.stepping with
      | .ascend => some (x.index + 1)
      | .descend => if x.index = 0 then none else some (x.index - 1)
      | .hold => some x.index
    (x.left ≤ 1 →
      exec i s = .next (answer seat .ok (x.done + 1) true true (s.raisedFlag seat) false written)) ∧
    (∀ n, 1 < x.left → next = some n → n < range →
      exec i s = .next (written.setPort seat
        { s.port seat with
          out := []
          phase := .writing { x with index := n, left := x.left - 1, done := x.done + 1 } })) ∧
    (1 < x.left → (∀ n, next = some n → range ≤ n) →
      exec i s = .next
        (answer seat .badIndex (x.done + 1) false true (s.raisedFlag seat) false written))))

/-- What an accepted record puts into the shadow set, by its class (R8, R11, R39, R40, R178): the
stage count from 1 to 12, or the record in its place. A record is accepted if and only if every
field lies in its range, and each field is the one its bytes spell, most significant byte first. That
the bits which R178 does not name are ignored is the model's choice (log 49). -/
def Obligations.WrittenRecordTakesItsPlaceInTheSet : Prop :=
  ∀ (set : PortalSet) (x : Transfer) (bytes : List Byte),
    (x.cls = 16 → set.writeRecord x bytes =
      (portalRecordOf bytes).map fun r => { set with record := r }) ∧
    (x.cls = 17 → set.writeRecord x bytes =
      if 1 ≤ byteAt bytes 0 ∧ byteAt bytes 0 ≤ 12 then some { set with stageCount := byteAt bytes 0 }
      else none) ∧
    (∀ i : Fin 12, x.cls = 18 → x.index = i.val → set.writeRecord x bytes =
      (stageRowOf bytes).map fun r => { set with rows := wr set.rows i r }) ∧
    (∀ i : Fin 16, x.cls = 19 → x.index = i.val → set.writeRecord x bytes =
      (channelSlotOf bytes).map fun r => { set with slots := wr set.slots i r }) ∧
    (∀ r, portalRecordOf bytes = some r ↔
      (r.enabled = bitAt bytes 0 0 ∧ r.activeLow = bitAt bytes 0 1 ∧ r.fireArmed = bitAt bytes 0 2 ∧
        r.lineArmed = bitAt bytes 0 3 ∧ ∀ z, rd r.zones z = bitAt bytes 1 z.val) ∧
      (byteAt bytes 2 = (r.slot0.map Fin.val).getD 255 ∧
        byteAt bytes 3 = (r.slot1.map Fin.val).getD 255) ∧
      (r.k = byteAt bytes 4 ∧ 20 ≤ r.k ∧ r.k ≤ 150) ∧
      (r.window = byteAt bytes 5 ∧ 4 ≤ r.window ∧ r.window ≤ 16) ∧
      (r.tStale = byteAt bytes 6 ∧ 2 ≤ r.tStale ∧ r.tStale ≤ 30) ∧
      (r.overlap = byteAt bytes 7 ∧ 2 ≤ r.overlap ∧ r.overlap ≤ 50) ∧
      (r.tHold = wordAt bytes 8 ∧ r.tHold ≤ 600) ∧
      (r.upRate = wordAt bytes 10 ∧ 10 ≤ r.upRate ∧ r.upRate ≤ 1000 ∧ r.upRate % 10 = 0) ∧
      (r.downRate = wordAt bytes 12 ∧ 10 ≤ r.downRate ∧ r.downRate ≤ 1000 ∧ r.downRate % 10 = 0) ∧
      ∀ z, rd r.boost z = wordAt bytes (14 + 2 * z.val) ∧ rd r.boost z ≤ 500) ∧
    (∀ r, stageRowOf bytes = some r ↔
      (wordAt bytes 0 = r.rise.getD 65535 ∧ ∀ n ∈ r.rise, n ≤ 30000) ∧
      (wordAt bytes 2 = r.fall.getD 65535 ∧ ∀ n ∈ r.fall, n ≤ 30000) ∧
      (r.dwell = wordAt bytes 4 ∧ r.dwell ≤ 900) ∧
      ∀ z, rd r.levels z = wordAt bytes (6 + 2 * z.val) ∧ rd r.levels z ≤ 1000) ∧
    (channelSlotOf bytes = some none ↔ bitAt bytes 0 0 = false) ∧
    (∀ r, channelSlotOf bytes = some (some r) ↔
      (bitAt bytes 0 0 = true ∧ r.switched = bitAt bytes 0 1 ∧ r.channel.val = byteAt bytes 1 ∧
        byteAt bytes 2 = (r.zone.map Fin.val).getD 7 ∧ r.failLevel = wordAt bytes 4 ∧
        r.minLevel = wordAt bytes 6) ∧
      (r.switched = true → (r.failLevel = 0 ∨ r.failLevel = 1000) ∧ r.minLevel = 0) ∧
      (r.switched = false → r.failLevel ≤ 1000 ∧ r.minLevel ≤ 300)) ∧
    (∀ i, byteAt bytes i = (bytes.getD i 0#8).toNat ∧
      wordAt bytes i = (bytes.getD i 0#8).toNat * 256 + (bytes.getD (i + 1) 0#8).toNat ∧
      tripleAt bytes i = (bytes.getD i 0#8).toNat * 65536 +
        (bytes.getD (i + 1) 0#8).toNat * 256 + (bytes.getD (i + 2) 0#8).toNat ∧
      ∀ n, bitAt bytes i n = (bytes.getD i 0#8).toNat.testBit n)

/-- Whether the set `x`, as portal `p`'s shadow in a COMMIT of the portals named, fails check `n` at index
`i`: checks 1 to 5 (R10), 20 to 24 (R43), 25 to 34 (R44), 41 to 47 (R12) and 60 to 63 (R163). -/
def Sys2Proof.Machine.CheckFails (s : State) (named : List (Fin 4)) (p : Fin 4) (x : PortalSet)
    (n i : Nat) : Prop :=
  let r := x.record
  let present (z : Fin 5) : Prop := rd r.zones z = true
  let slot (a : Fin 16) (k : ChannelRecord) : Prop := rd x.slots a = some k
  let holds (y : PortalSet) (c : Fin 32) : Prop := ∃ a k, rd y.slots a = some k ∧ k.channel = c
  let binds (y : PortalSet) (m : Fin 8) : Prop := y.record.slot0 = some m ∨ y.record.slot1 = some m
  let other (y : PortalSet) : Prop :=
    ∃ q, q ≠ p ∧ (y = s.set q ∨ ∃ w ∈ (s.edit q).pendingSet, y = w.set)
  let lower (y : PortalSet) : Prop := ∃ q ∈ named, q < p ∧ ∃ w ∈ (s.edit q).shadow, y = w.set
  let taken (sets : PortalSet → Prop) : Prop :=
    (i = 0 ∧ ∃ m ∈ r.slot0, ∃ y, sets y ∧ binds y m) ∨
      (i = 1 ∧ ∃ m ∈ r.slot1, ∃ y, sets y ∧ binds y m)
  (n = 1 ∧ i = 0 ∧ r.enabled = true ∧ ¬ present 0) ∨
  (n = 2 ∧ r.enabled = false ∧ ∃ z : Fin 5, i = z.val ∧ present z) ∨
  (n = 3 ∧ r.enabled = false ∧ ((i = 0 ∧ r.slot0 ≠ none) ∨ (i = 1 ∧ r.slot1 ≠ none))) ∨
  (n = 4 ∧ i = 1 ∧ r.slot0 ≠ none ∧ r.slot0 = r.slot1) ∨
  (n = 5 ∧ ∃ z : Fin 5, i = z.val ∧ ¬ present z ∧ 0 < rd r.boost z) ∨
  (n = 20 ∧ i = 0 ∧ ((x.row 0).rise ≠ none ∨ (x.row 0).fall ≠ none)) ∨
  (n = 21 ∧ 1 ≤ i ∧ i < x.stageCount ∧ ((x.row i).rise = none ∨ (x.row i).fall = none)) ∨
  (n = 22 ∧ 1 ≤ i ∧ i < x.stageCount ∧ ∃ u ∈ (x.row i).rise, ∃ d ∈ (x.row i).fall, u ≤ d) ∨
  (n = 23 ∧ 2 ≤ i ∧ i < x.stageCount ∧ ∃ u ∈ (x.row i).rise, ∃ v ∈ (x.row (i - 1)).rise, u ≤ v) ∨
  (n = 24 ∧ 2 ≤ i ∧ i < x.stageCount ∧ ∃ u ∈ (x.row i).fall, ∃ v ∈ (x.row (i - 1)).fall, u ≤ v) ∨
  (∃ z : Fin 5, n = 25 + z.val ∧ i < x.stageCount ∧ ¬ present z ∧ 0 < rd (x.row i).levels z) ∨
  (∃ z : Fin 5, n = 30 + z.val ∧ 1 ≤ i ∧ i < x.stageCount ∧ present z ∧
    rd (x.row i).levels z < rd (x.row (i - 1)).levels z) ∨
  (n = 41 ∧ r.enabled = false ∧ ∃ a k, i = a.val ∧ slot a k) ∨
  (n = 42 ∧ ∃ a k, i = a.val ∧ slot a k ∧ ∃ z ∈ k.zone, ¬ present z) ∨
  (n = 43 ∧ ∃ a k b j, i = a.val ∧ slot a k ∧ slot b j ∧ b < a ∧ j.channel = k.channel) ∨
  (n = 44 ∧ ∃ z : Fin 5, i = z.val ∧ present z ∧
    ∀ a k, slot a k → ¬ (k.zone = some z ∧ k.switched = false)) ∨
  (n = 45 ∧ ∃ z : Fin 5, i = z.val ∧ present z ∧ 0 < rd r.boost z ∧
    ∀ a k, slot a k → ¬ (k.zone = some z ∧ k.switched = true)) ∨
  (n = 46 ∧ ∃ a k, i = a.val ∧ slot a k ∧ k.switched = true ∧ ∃ z ∈ k.zone, rd r.boost z = 0) ∨
  (n = 47 ∧ ∃ a k b j, i = a.val ∧ slot a k ∧ slot b j ∧ b < a ∧ k.switched = true ∧
    j.switched = true ∧ ∃ z ∈ k.zone, j.zone = some z) ∨
  (n = 60 ∧ ∃ a k, i = a.val ∧ slot a k ∧ ∃ y, other y ∧ holds y k.channel) ∨
  (n = 61 ∧ ∃ a k, i = a.val ∧ slot a k ∧ ∃ y, lower y ∧ holds y k.channel) ∨
  (n = 62 ∧ taken other) ∨ (n = 63 ∧ taken lower)

/-- The validation of a COMMIT (R10, R12, R43, R44, R163): when each check fails and at which index,
and that the first failing check in ascending order, at its lowest index, of the lowest portal named
gives the INVALID value of R177; no value when no check fails. -/
def Obligations.ValidationReportsTheFirstFailedCheck : Prop :=
  ∀ (h : Header) (s : State),
    (s.validation h.portals = none ↔
      ∀ p ∈ h.portals, ∀ x ∈ (s.edit p).shadow, ∀ n i, ¬ CheckFails s h.portals p x.set n i) ∧
    (∀ value, s.validation h.portals = some value ↔
      ∃ p ∈ h.portals, ∃ x ∈ (s.edit p).shadow, ∃ n i,
        value = p.val * 16384 + n * 256 + i ∧ CheckFails s h.portals p x.set n i ∧
        (∀ m j, CheckFails s h.portals p x.set m j → n < m ∨ (n = m ∧ i ≤ j)) ∧
        (∀ q ∈ h.portals, q < p → ∀ y ∈ (s.edit q).shadow, ∀ m j,
          ¬ CheckFails s h.portals q y.set m j))

/-- COMMIT's checks in their order (R163), each refusing the whole command. The P flag of a refused
COMMIT follows the P row of R164's table, which names no outcome: it is set if a named portal holds
a pending set then (log 37, DEDUCED). -/
def Obligations.CommitRefusesInTheOrderOfItsChecks : Prop :=
  ∀ (seat : Seat) (h : Header) (s : State), (s.port seat).phase = .header →
    let deny (code : ResultCode) (value : Nat) : Prop :=
      exec (.commit seat h) s = done (answer seat code value false false (s.raisedFlag seat)
        (h.portals.any fun p => (s.edit p).pendingSet.isSome) s)
    let held : Prop := h.portals ≠ [] ∧ ∀ p ∈ h.portals, (s.edit p).holder = some seat
    let editable : Prop := ∀ p ∈ h.portals, s.shadowLocked p = false
    let clear : Prop := ∀ p ∈ h.portals, (s.edit p).pendingSet = none
    (h.portals = [] → deny .badValue 0) ∧
    (∀ p, (h.portals.find? fun q => !s.holdsGrant seat q) = some p → deny .notHolder p.val) ∧
    (∀ p, held → h.portals.find? s.shadowLocked = some p → deny .locked p.val) ∧
    (∀ p, held → editable → h.portals.find? s.hasPending = some p → deny .pendingBusy p.val) ∧
    (∀ value, held → editable → clear → s.validation h.portals = some value → deny .invalid value)

/-- An accepted COMMIT (R164). Of portals none of which is at its adoption point: a pending set for
each, its shadow LOCKED, and P set. Of one portal at its adoption point: the pending set is adopted
within the command, and the mask names the portal. Of several portals, of which some are at their
adoption point: those adopt, in ascending order, and the mask names them; the others keep their pending
sets, for which P is set. -/
def Obligations.CommitMakesPendingSets : Prop :=
  ∀ (seat : Seat) (h : Header) (s : State), (s.port seat).phase = .header → h.portals ≠ [] →
    s.validation h.portals = none →
    (∀ p set, h.portals = [p] → (s.edit p).holder = some seat → (s.edit p).pendingSet = none →
      (s.edit p).shadow = some { set := set, locked := false } → s.adoptionPoint p = true →
      let made : State := s.setEdit p
        { holder := some seat, shadow := some { set := set, locked := true },
          pendingSet := some { set := set.copied, seat := seat, time := s.tenths } }
      ∃ t, exec (.adoption p) made = done t ∧
        exec (.commit seat h) s =
          done (answer seat .ok (2 ^ p.val) true true (s.raisedFlag seat) false t)) ∧
    ((∀ p ∈ h.portals, (s.edit p).holder = some seat ∧ (s.edit p).pendingSet = none ∧
      s.adoptionPoint p = false ∧ ∃ set, (s.edit p).shadow = some { set := set, locked := false }) →
    ∃ t, exec (.commit seat h) s = done (answer seat .ok 0 true true (s.raisedFlag seat) true t) ∧
      (∀ p ∈ h.portals, ∀ set, (s.edit p).shadow = some { set := set, locked := false } →
        t.edit p =
          { holder := some seat, shadow := some { set := set, locked := true },
            pendingSet := some { set := set.copied, seat := seat, time := s.tenths } }) ∧
      (∀ p, p ∉ h.portals → t.edit p = s.edit p) ∧ { t with edits := s.edits } = s) ∧
    ((∀ p ∈ h.portals, (s.edit p).holder = some seat ∧ (s.edit p).pendingSet = none ∧
      ∃ set, (s.edit p).shadow = some { set := set, locked := false }) →
    let made : State := { s with edits := tab fun p =>
      match (s.edit p).shadow with
      | some x =>
        if p ∈ h.portals then
          { holder := some seat, shadow := some { set := x.set, locked := true },
            pendingSet := some { set := x.set.copied, seat := seat, time := s.tenths } }
        else s.edit p
      | none => s.edit p }
    let t := h.portals.foldl (fun u p => adoptIfReady p u) made
    (∀ p u, exec (.adoption p) u = done (adoptIfReady p u)) ∧
    exec (.commit seat h) s = done (answer seat .ok (maskOf (h.portals.filter s.adoptionPoint)) true
      true (s.raisedFlag seat) (h.portals.any fun p => !s.adoptionPoint p) t) ∧
    (∀ p ∈ h.portals, ∀ set, (s.edit p).shadow = some { set := set, locked := false } →
      (s.adoptionPoint p = true →
        t.set p = set.copied ∧
        t.edit p = { holder := some seat, pendingSet := none
                     shadow := some { set := set.copied, locked := false } }) ∧
      (s.adoptionPoint p = false → SamePortal p made t)) ∧
    ∀ p, p ∉ h.portals → SamePortal p s t)

/-- ADOPTION (R2, R165): at its adoption point a portal's pending set becomes its active set, the
base state follows the record, a LOCKED shadow is replaced, and ADOPTED is posted last; other
portals keep their blocks. That an ADOPTION away from the adoption point, or without a pending set,
changes nothing is the model's reading (log 14), and that ADOPTED stands last among the records of its
adoption is the model's choice (log 13). -/
def Obligations.AdoptionReplacesTheActiveSet : Prop :=
  ∀ (p : Fin 4) (s : State),
    ((s.edit p).pendingSet = none ∨ s.adoptionPoint p = false → exec (.adoption p) s = done s) ∧
    (∀ x, (s.edit p).pendingSet = some x → s.adoptionPoint p = true →
      ∃ t, exec (.adoption p) s = .next t ∧ t.set p = x.set ∧
        t.edit p =
          { holder := (s.edit p).holder, pendingSet := none
            shadow := (s.edit p).shadow.map fun y =>
              if y.locked then { set := x.set.copied, locked := false } else y } ∧
        (x.set.record.enabled = false → t.baseOf p = .unconfigured) ∧
        (x.set.record.enabled = true → s.baseOf p = .running → t.baseOf p = .running) ∧
        (x.set.record.enabled = true → s.baseOf p ≠ .running →
          t.baseOf p = if t.statusOf p = .live ∨ t.statusOf p = .injected then .running
            else .starting) ∧
        (t.arbiter p).top = x.set.top ∧ (t.arbiter p).effective = (t.arbiter p).resolved ∧
        (∀ z, (t.zone p z).isSome = rd x.set.record.zones z) ∧
        (∀ q, q ≠ p → t.set q = s.set q ∧ t.edit q = s.edit q ∧ t.baseOf q = s.baseOf q ∧
          t.arbiter q = s.arbiter q ∧ t.selector q = s.selector q ∧ t.eval q = s.eval q ∧
          t.tripUnit q = s.tripUnit q ∧ rd t.zones q = rd s.zones q) ∧
        (∀ m, (s.record p).binds m = false → x.set.record.binds m = false → t.meter m = s.meter m) ∧
        SameClock s t ∧ t.image = s.image ∧ t.storing = s.storing ∧ t.ports = s.ports ∧
        t.claimCounter = s.claimCounter ∧
        (∀ seat, (t.queue seat).overflowed = false → (t.queue seat).mask.getLsbD 13 = true →
          ((t.queue seat).records.getLast?).map EventRecord.event = some (.adopted p x.seat)))

/-- What an adoption does, block by block, in a state whose trips are well-formed: the binding
changes of R19, told to every seat (R24) in ascending order of meter number (the model's choice, log
34), the source at the adoption (R2, R27 to R29), the one selection of R58, the rewriting
of FREEZE claims (R82), and the cases of the Trip Unit (R118). That a stale deadline or a hold timer's
end equal to the present moment has already passed is the model's reading (log 15). -/
def Obligations.AdoptionRebindsSelectsAndActsOnTrips : Prop :=
  ∀ (p : Fin 4) (x : PendingSet) (s : State), TripsWf s → (s.edit p).pendingSet = some x →
    s.adoptionPoint p = true →
    ∃ t, exec (.adoption p) s = .next t ∧
      let old := s.record p
      let new := x.set.record
      let valid : Prop := ∃ m, new.binds m = true ∧ (t.meter m).state = .valid
      -- the Meter Intake (R19)
      (∀ m,
        let y := s.meter m
        let z := t.meter m
        (new.binds m = true → old.binds m = false →
          z.state = .starting ∧ z.ring = [] ∧ z.estimate = none ∧ z.badCount = 0 ∧
            z.staleDeadline = none) ∧
        (new.binds m = false → old.binds m = true →
          z.state = .unused ∧ z.ring = [] ∧ z.estimate = none ∧ z.badCount = 0 ∧
            z.staleDeadline = none) ∧
        (new.binds m = true → old.binds m = true →
          (y.state = .stale ∨ y.state = .faulted → y.staleDeadline = none → z = y) ∧
          (∀ r ∈ y.ring.getLast?, y.state = .valid ∨ y.state = .starting →
            let deadline := r.arrival + 10 * new.tStale
            (s.tenths < deadline → z = { y with staleDeadline := some deadline }) ∧
            (deadline ≤ s.tenths → y.state = .valid →
              z = { y with state := .stale, staleDeadline := none }) ∧
            (deadline ≤ s.tenths → y.state = .starting →
              z = { y with ring := [], staleDeadline := none })))) ∧
      (let told (m : Fin 8) : List Event :=
        let y := s.meter m
        let deadline : Option Nat :=
          match y.ring.getLast? with
          | some r => some (r.arrival + 10 * new.tStale)
          | none => y.staleDeadline
        if new.binds m && !old.binds m && y.state != .starting then
          [.meterState p m .bound y.state .starting]
        else if !new.binds m && old.binds m && y.state != .unused then
          [.meterState p m .unbound y.state .unused]
        else if new.binds m && old.binds m && y.state == .valid &&
            deadline.any fun d => decide (d ≤ s.tenths) then
          [.meterState p m .timeout .valid .stale]
        else []
      ∀ seat, ∃ rest : List Event,
        t.queue seat = ((List.finRange 8).flatMap told ++ rest).foldl
          (fun q e => q.place e s.uptime) (s.queue seat) ∧
        ∀ e ∈ rest, ∀ m c a b, e ≠ .meterState p m c a b) ∧
      -- the Portal Evaluator (R2, R27, R28, R29)
      (s.baseOf p = .running → new.enabled = true →
        let e := s.eval p
        let f := t.eval p
        (e.source = .live → valid → f.source = .live) ∧
        (e.source = .live → ¬ valid → 0 < new.tHold →
          f.source = .hold ∧ f.holdSince = some s.now) ∧
        (e.source = .live → ¬ valid → new.tHold = 0 → f.source = .lost) ∧
        (∀ since ∈ e.holdSince, e.source = .hold → s.now < since + new.tHold * 1000 →
          f.source = .hold ∧ f.holdSince = some since) ∧
        (∀ since ∈ e.holdSince, e.source = .hold → since + new.tHold * 1000 ≤ s.now →
          f.source = .lost ∧ f.holdSince = none) ∧
        (e.source = .lost → f.source = .lost)) ∧
      (s.baseOf p = .unconfigured → new.enabled = true →
        ((t.arbiter p).topInject = none → (t.eval p).source = .none ∧ t.baseOf p = .starting) ∧
        ((t.arbiter p).topInject ≠ none → (t.eval p).source = .lost ∧ t.baseOf p = .running)) ∧
      (s.baseOf p ≠ .unconfigured → new.enabled = false →
        (t.eval p).source = .none ∧ (t.eval p).holdSince = none ∧
        ((t.arbiter p).topInject = none → (t.eval p).status = .none ∧ (t.eval p).demand = 0)) ∧
      -- the Stage Selector (R52, R58)
      (let status := (t.eval p).status
        let d := (t.eval p).demand
        let reached (i : Nat) : Prop := ∃ r ∈ (x.set.row i).rise, r ≤ d
        let entered (following : Bool) (i : Nat) (demand : Option Nat) : Prop :=
          t.selector p =
            { following := following, automatic := i, enteredAt := s.tenths, demandInUse := demand
              dwell := some (s.now + (x.set.row i).dwell * 1000) }
        (t.baseOf p ≠ .running ∨ status = .lost → entered false (x.set.stageCount - 1) none) ∧
        (t.baseOf p = .running → status ≠ .lost →
          (∀ i, i < x.set.stageCount → 1 ≤ i → reached i →
            (∀ j, j < x.set.stageCount → i < j → ¬ reached j) → entered true i (some d)) ∧
          ((∀ i, i < x.set.stageCount → 1 ≤ i → ¬ reached i) → entered true 0 (some d)))) ∧
      -- the Claim Arbiter (R82)
      (t.arbiter p).claims = (s.arbiter p).claims.map (fun c =>
        if c.kind = .freeze then
          { c with captured := c.captured.map fun n => min n (x.set.stageCount - 1) }
        else c) ∧
      -- the Trip Unit (R118)
      (let u := s.tripUnit p
        let v := t.tripUnit p
        let level := if new.activeLow then !rd s.firePins p else rd s.firePins p
        v.debounced = u.debounced ∧
        (old.activeLow = new.activeLow → v.fireLevel = u.fireLevel ∧ v.debounce = u.debounce) ∧
        (old.activeLow ≠ new.activeLow → level = u.fireLevel →
          v.fireLevel = u.fireLevel ∧ v.debounce = u.debounce) ∧
        (old.activeLow ≠ new.activeLow → level ≠ u.fireLevel →
          v.fireLevel = level ∧
            v.debounce = if level = u.debounced then none else some (s.now + 200)) ∧
        (new.enabled = false →
          v.fireLatch = none ∧ v.orderLatch = none ∧ v.overlay = false ∧
            v.sources = { fire := false, line := false, order := false }) ∧
        (new.enabled = true →
          v.orderLatch = u.orderLatch ∧
          v.fireLatch =
            (if u.fireLatch = none ∧ u.debounced = true ∧ new.fireArmed = true then some s.tenths
              else u.fireLatch) ∧
          v.sources =
            { fire := v.fireLatch.isSome, order := v.orderLatch.isSome
              line := new.lineArmed && v.lineDown } ∧
          (v.overlay = true ↔
            v.sources.fire = true ∨ v.sources.line = true ∨ v.sources.order = true)))

/-- What zone `z` of portal `p` holds once the set `x` has been adopted in `s`, in the state `u` after it
(R5, R97, R98). Its working target is its level in the row of the effective stage. A zone whose switched
channel is kept keeps its switched target and its boost confirmed; another one takes its switched channel's
commanded level. A zone that is not HELD plans afresh; one of a portal that stays TRIPPED stays or becomes
HELD; one whose portal becomes TRIPPED is HELD with its timers stopped; and one whose portal leaves
TRIPPED plans from the fail level of its switched channel. -/
def Sys2Proof.Machine.AdoptedZone (p : Fin 4) (z : Fin 5) (x : PortalSet) (s u : State) : Prop :=
  let level := rd (x.row (u.arbiter p).effective).levels z
  let switched (y : PortalSet) : Option Circuit :=
    (y.circuits p).find? fun k => k.cfg.zone == some z && k.cfg.switched
  let kept : Bool := (switched (s.set p)).any fun a => (switched x).any fun b =>
    a.cfg.channel == b.cfg.channel && a.addr == b.addr
  let stays (k : Circuit) : Bool := (s.circuits p).any fun j =>
    j.cfg.channel == k.cfg.channel && j.addr == k.addr && j.cfg.switched
  let on : Bool := (switched x).any fun k =>
    if s.tripped p then k.cfg.failLevel != 0
    else stays k && (s.channel k.cfg.channel).level.getD 0 != 0
  let failed : Bool := (switched x).any fun k => k.cfg.failLevel != 0
  let b := rd x.record.boost z
  let boost : Bool := decide (0 < b ∧ 1000 - b < level)
  let held (on : Bool) : Zone :=
    { state := .held, working := level, latest := none, switched := on, confirmed := false,
      overlap := none, confirm := none, degraded := false }
  -- the zone as it takes the set, from what it was
  let taken (zn : Zone) : Zone :=
    { zn with
      working := level, confirm := none, degraded := false
      confirmed := kept && zn.confirmed, switched := if kept then zn.switched else on }
  let fresh : Zone := { held on with state := .steady }
  (∀ zn ∈ s.zone p z,
    (s.tripped p = false → u.tripped p = false → zn.state ≠ .held →
      u.zone p z = (plan p z { taken zn with latest := none } u).zone p z) ∧
    (s.tripped p = true → u.tripped p = true → zn.state = .held →
      u.zone p z = some (taken zn)) ∧
    (s.tripped p = false → u.tripped p = true → zn.state ≠ .held →
      u.zone p z = some (held
        (if b = 0 then false else if boost then true else (taken zn).switched))) ∧
    (s.tripped p = true → u.tripped p = false → zn.state = .held →
      u.zone p z = (plan p z { taken zn with switched := failed } u).zone p z)) ∧
  (s.zone p z = none →
    (s.tripped p = false → u.tripped p = false →
      u.zone p z = (plan p z fresh u).zone p z) ∧
    (u.tripped p = true → u.zone p z = some (held on)) ∧
    (s.tripped p = true → u.tripped p = false →
      u.zone p z = (plan p z { held on with switched := failed } u).zone p z))

/-- The channel cases of an adoption (R13, R137, R139), for sets that name no channel twice:
channels that join, leave, are replaced, moved or kept, their farewells and first levels on the
line, what a TRIPPED portal commands them at, and the transaction in progress; and what each present
zone then holds (R5, R98). The seat of each hand channel that is released is told with cause ADOPTION
(R102). The model's choices: that a channel which has left keeps its commanded level and target until its
farewell completes (log 28), what is kept of a second farewell at one address (log 18), and the order of
several HAND_RELEASED records (log 41). -/
def Obligations.AdoptionAppliesTheChannelCases : Prop :=
  ∀ (p : Fin 4) (x : PendingSet) (s : State), (s.edit p).pendingSet = some x →
    s.adoptionPoint p = true →
    let old := s.circuits p
    let new := x.set.circuits p
    let distinct (l : List Circuit) : Prop :=
      ∀ k ∈ l, ∀ j ∈ l, j.cfg.channel = k.cfg.channel → j = k
    let same (k j : Circuit) : Prop := k.addr = j.addr ∧ k.cfg.switched = j.cfg.switched
    let line := s.lampLine p
    distinct old → distinct new →
    ∃ u, exec (.adoption p) s = done u ∧
      let after := u.lampLine p
      -- joining: at level 0 or OFF, on the line at its address, its level entered (R13, R137)
      (∀ j ∈ new, (∀ k ∈ old, k.cfg.channel ≠ j.cfg.channel) →
        (u.channel j.cfg.channel).hand = none ∧ (u.channel j.cfg.channel).farewell = none ∧
        rd after.stations j.addr = some
          { channel := j.cfg.channel, misses := if line.down then 3 else 0, status := none } ∧
        (∃ e ∈ after.updates, e.addr = j.addr ∧ e.owner = some j.cfg.channel) ∧
        (u.tripped p = false → s.tripped p = false → j.cfg.switched = false →
          (u.channel j.cfg.channel).level = some 0 ∧
          ∃ e ∈ after.updates, e.addr = j.addr ∧ e.owner = some j.cfg.channel ∧ e.level = 0) ∧
        (u.tripped p = false → s.tripped p = false → j.cfg.switched = true →
          (u.channel j.cfg.channel).level = (u.channel j.cfg.channel).target)) ∧
      -- leaving, and the leaving side of a replaced channel: off the line, its farewell entered, for
      -- which the channel waits, its miss count and status kept until that completes (R13, R137, R138)
      (∀ k ∈ old, (∀ j ∈ new, j.cfg.channel = k.cfg.channel → ¬ same k j) →
        (u.channel k.cfg.channel).hand = none ∧
        (u.channel k.cfg.channel).farewell = some (p, k.addr) ∧
        (∃ d ∈ after.departed, d.channel = k.cfg.channel ∧ d.addr = k.addr ∧
          (d.replaced = true ↔ ∃ j ∈ new, j.cfg.channel = k.cfg.channel) ∧
          (d.later = true ↔ ∃ y ∈ line.tx, y.addr = k.addr ∧ y.departing = some k.cfg.channel) ∧
          (∀ t ∈ rd line.stations k.addr, t.channel = k.cfg.channel →
            d.misses = t.misses ∧ d.status = t.status)) ∧
        (∃ e ∈ after.updates, e.addr = k.addr ∧ e.departing = some k.cfg.channel ∧
          ((∀ j ∈ new, j.addr ≠ k.addr) → e.level = 0 ∧ e.owner = none)) ∧
        ((∀ j ∈ new, j.addr ≠ k.addr) → line.carries k.addr k.cfg.channel = true →
          rd after.stations k.addr = none) ∧
        ((∀ j ∈ new, j.cfg.channel ≠ k.cfg.channel) →
          (u.channel k.cfg.channel).level = (s.channel k.cfg.channel).level ∧
          (u.channel k.cfg.channel).target = (s.channel k.cfg.channel).target)) ∧
      -- the joining side of a replaced channel waits for that farewell (R137)
      (∀ k ∈ old, ∀ j ∈ new, j.cfg.channel = k.cfg.channel → ¬ same k j →
        k.addr = j.addr ∨ line.carries j.addr j.cfg.channel = false →
        after.carries j.addr j.cfg.channel = false ∧
        (u.tripped p = false → s.tripped p = false → j.cfg.switched = false →
          (u.channel j.cfg.channel).level = some 0)) ∧
      -- kept and moved: in place on the line (R13, R137)
      (∀ k ∈ old, ∀ j ∈ new, j.cfg.channel = k.cfg.channel → same k j →
        rd after.stations j.addr = rd line.stations j.addr ∧
        (u.channel j.cfg.channel).farewell = (s.channel j.cfg.channel).farewell ∧
        (j.cfg.zone ≠ k.cfg.zone → (u.channel j.cfg.channel).hand = none) ∧
        (j.cfg.zone = k.cfg.zone → (u.channel j.cfg.channel).hand =
          (s.channel j.cfg.channel).hand.map fun y => { y with level := j.cfg.raised y.level }) ∧
        (u.tripped p = false → s.tripped p = false → j.cfg.switched = false →
          (u.channel j.cfg.channel).level =
            if j.cfg.zone = k.cfg.zone then (s.channel j.cfg.channel).level.map j.cfg.raised
            else (s.channel j.cfg.channel).level)) ∧
      -- a portal that stays TRIPPED commands its channels at their fail levels (R13, R99)
      (s.tripped p = true → u.tripped p = true → ∀ j ∈ new,
        (u.channel j.cfg.channel).level = some (j.cfg.raised j.cfg.failLevel)) ∧
      -- the seats whose hand channels are released (R102)
      (let freed (seat : Seat) (l : List Circuit) : List Event := l.filterMap fun k =>
        if (s.channel k.cfg.channel).hand.any fun y => y.seat == seat then
          some (.handReleased p k.cfg.channel .adoption)
        else none
      let goes (k : Circuit) : Bool := !new.any fun j =>
        j.cfg.channel == k.cfg.channel && j.addr == k.addr && j.cfg.switched == k.cfg.switched
      let moves (j : Circuit) : Bool := old.any fun k =>
        k.cfg.channel == j.cfg.channel && k.addr == j.addr && k.cfg.switched == j.cfg.switched &&
          k.cfg.zone != j.cfg.zone
      ∀ seat, ∃ first last : List Event,
        u.queue seat =
          (first ++ freed seat (old.filter goes) ++ freed seat (new.filter moves) ++ last).foldl
            (fun q e => q.place e s.uptime) (s.queue seat) ∧
        ∀ e ∈ first ++ last, ∀ c r, e ≠ .handReleased p c r) ∧
      -- the zones of the new set (R5, R98)
      (TripsWf s → ∀ z, rd x.set.record.zones z = true → AdoptedZone p z x.set s u) ∧
      -- no other channel, and no other line
      (∀ c, (∀ k ∈ old, k.cfg.channel ≠ c) → (∀ k ∈ new, k.cfg.channel ≠ c) →
        u.channel c = s.channel c) ∧
      (∀ q, q ≠ p → u.lampLine q = s.lampLine q) ∧
      after.cursor = line.cursor ∧
      (∀ y ∈ line.tx, after.tx = some { y with
        channel :=
          if ∃ k ∈ old, k.addr = y.addr ∧ y.channel = some k.cfg.channel ∧
              ∀ j ∈ new, j.cfg.channel = k.cfg.channel → ¬ same k j then none
          else y.channel })

/-- DISCARD (R166): all or nothing; each pending set of a named portal is dropped and its LOCKED
shadow is EDITABLE with the same contents, and no event is posted. -/
def Obligations.DiscardDropsThePendingSets : Prop :=
  ∀ (seat : Seat) (h : Header) (s : State), (s.port seat).phase = .header →
    (h.portals = [] → exec (.discard seat h) s = .next (denied seat .badValue 0 s)) ∧
    (∀ p, (h.portals.find? fun q => !s.holdsGrant seat q) = some p →
      exec (.discard seat h) s = .next (denied seat .notHolder p.val s)) ∧
    (h.portals ≠ [] → (∀ p ∈ h.portals, (s.edit p).holder = some seat) →
      let dropped := h.portals.filter fun p => (s.edit p).pendingSet.isSome
      ∃ t, exec (.discard seat h) s = .next (granted seat (maskOf dropped) (dropped != []) t) ∧
        (∀ p, t.edit p =
          if p ∈ h.portals then
            { s.edit p with
              pendingSet := none
              shadow := (s.edit p).shadow.map fun x => { x with locked := false } }
          else s.edit p) ∧
        { t with edits := s.edits } = s)

/-- STORE (R167): refused without a grant, and while a write is in flight; else a snapshot of the
four active sets is being written, the image is invalid, and P is set. STORE_WRITE_END (R167, R168):
the verify decides the image and the event, which goes to the seat that requested the store, unless
a RESTART fell in the write. -/
def Obligations.StoreWritesTheActiveSetsAndEndsWithItsVerify : Prop :=
  (∀ (seat : Seat) (s : State), (s.port seat).phase = .header →
    ((∀ p, (s.edit p).holder ≠ some seat) →
      exec (.store seat) s = .next (denied seat .notHolder 0 s)) ∧
    ((∃ p, (s.edit p).holder = some seat) → s.storing ≠ none →
      exec (.store seat) s = .next (denied seat .storeBusy 0 s)) ∧
    ((∃ p, (s.edit p).holder = some seat) → s.storing = none →
      exec (.store seat) s = .next (answer seat .ok 0 true false (s.raisedFlag seat) true
        { s with
          image := none
          storing := some { seat := seat, time := s.tenths, snapshot := s.active,
                            latest := s.now + 2000, silenced := false } }))) ∧
  (∀ (w : StoreWrite) (s : State), s.storing = some w →
    (w.silenced = false →
      exec (.storeWriteEnd true) s =
        .next (postTo w.seat .storeDone { s with image := some w.snapshot, storing := none }) ∧
      exec (.storeWriteEnd false) s =
        .next (postTo w.seat .storeFailed { s with image := none, storing := none })) ∧
    (w.silenced = true →
      exec (.storeWriteEnd true) s = .next { s with image := some w.snapshot, storing := none } ∧
      exec (.storeWriteEnd false) s = .next { s with image := none, storing := none }))

/-! ### Claims (chapter 4) -/

/-- Resolution (R73): the held stage, the floor and the cap, each with its clamping, and the
effective stage they give, which every kind of claim but INJECT takes part in. -/
def Obligations.EffectiveStageIsHeldStageUnderCapAndFloor : Prop :=
  ∀ a : Arbiter,
    (∀ c, (a.claims.reverse.find? fun c => c.kind == .force || c.kind == .freeze) = some c →
      (∀ n, c.kind = .force → c.argument = some n → a.heldStage = min n a.top) ∧
      (∀ n, c.kind = .freeze → c.captured = some n → a.heldStage = min n a.top)) ∧
    ((∀ c ∈ a.claims, c.kind ≠ .force ∧ c.kind ≠ .freeze) → a.heldStage = a.automatic) ∧
    ((∀ c ∈ a.claims, c.kind ≠ .floor) → a.floor = 0) ∧
    (∀ c ∈ a.claims, ∀ n, c.kind = .floor → c.argument = some n → min n a.top ≤ a.floor) ∧
    ((∃ c ∈ a.claims, c.kind = .floor) →
      ∃ c ∈ a.claims, c.kind = .floor ∧ a.floor = min (c.argument.getD 0) a.top) ∧
    ((∀ c ∈ a.claims, c.kind ≠ .cap) → a.cap = a.top) ∧
    (∀ c ∈ a.claims, ∀ n, c.kind = .cap → c.argument = some n → a.cap ≤ min n a.top) ∧
    ((∃ c ∈ a.claims, c.kind = .cap) →
      ∃ c ∈ a.claims, c.kind = .cap ∧ a.cap = min (c.argument.getD 0) a.top) ∧
    a.resolved = (if min a.heldStage a.cap < a.floor then a.floor else min a.heldStage a.cap) ∧
    (a.cap < a.floor → a.resolved = a.floor) ∧
    a.resolved ≤ a.top ∧
    (∀ c ∈ a.claims, ∀ n, c.kind = .floor → c.argument = some n → min n a.top ≤ a.resolved) ∧
    (∀ b : Arbiter, b = { a with claims := a.claims.filter fun c => c.kind != ClaimKind.inject } →
      b.resolved = a.resolved) ∧
    (∀ (p : Fin 4) (s : State), s.arbiter p = a → ((resolve p s).arbiter p).effective = a.resolved)

/-- What follows from a resolution (R74): a changed stage is posted with the stages it left and
entered and each present zone receives its level; an unchanged one does nothing. That the zones receive
theirs in ascending order is the model's choice (log 51). -/
def Obligations.ResolutionPostsAndHandsOnAChange : Prop :=
  ∀ (p : Fin 4) (s : State),
    let a := s.arbiter p
    let told : State :=
      postAll (.stageChanged p a.effective a.resolved a.automatic)
        (s.setArbiter p { a with effective := a.resolved })
    let level (z : Fin 5) : Nat := rd ((s.set p).row a.resolved).levels z
    (a.resolved = a.effective → resolve p s = s) ∧
    (a.resolved ≠ a.effective → resolve p s =
      zoneArrive p 4 (level 4) (zoneArrive p 3 (level 3) (zoneArrive p 2 (level 2)
        (zoneArrive p 1 (level 1) (zoneArrive p 0 (level 0) told)))))

/-- PUSH_CLAIM's checks in their order (R69, R70), each refusing the whole push. -/
def Obligations.PushClaimRefusesInTheOrderOfItsChecks : Prop :=
  ∀ (seat : Seat) (h : Header) (b : List Byte) (s : State),
    (s.port seat).phase = .header → b.length = 8 →
    let deny (code : ResultCode) (value : Nat) : Prop :=
      exec (.pushClaim seat h b) s = done (denied seat code value s)
    let kind := byteAt b 0
    let argument := wordAt b 2
    let deadline := tripleAt b 4
    let badArgument : Prop := (kind ≤ 2 ∧ 11 < argument) ∨ (kind = 4 ∧ 20000 < argument)
    let keptInject : Prop := kind = 4 ∧ bitAt b 1 0 = true
    let badDeadline : Prop := 86400 < deadline ∨ (kind = 4 ∧ (deadline = 0 ∨ 3600 < deadline))
    (h.records ≠ 1 → deny .badValue 0) ∧
    (h.records = 1 → h.portals = [] → deny .badValue 0) ∧
    (h.records = 1 → h.portals ≠ [] →
      (5 ≤ kind → deny .badValue 1) ∧
      (kind < 5 → badArgument → deny .badValue 2) ∧
      (kind < 5 → ¬ badArgument → keptInject → deny .badValue 3) ∧
      (kind < 5 → ¬ badArgument → ¬ keptInject → badDeadline → deny .badValue 4) ∧
      (∀ p, kind < 5 → ¬ badArgument → ¬ keptInject → ¬ badDeadline →
        (h.portals.find? fun q =>
          decide (4 ≤ ((s.arbiter q).claims.filter fun c => c.seat == seat).length)) = some p →
        deny .quota p.val))

/-- An accepted PUSH_CLAIM (R66, R71, R176, R178): one copy with the kind, tie, argument and deadline
that the record's bytes give, at the tail of each named portal's list, a resolution there, and the L
flag for an argument above a top stage. A pushed INJECT claim is the new topmost one: after its resolution
each named portal is evaluated (R29, R30, R75), so that its source status is INJECTED and its A the claim's
argument; a claim of another kind leaves the Portal Evaluator as it was. That the portals act in ascending
order, each with all that follows, is the model's choice (log 42). -/
def Obligations.PushClaimJoinsEachNamedList : Prop :=
  ∀ (seat : Seat) (h : Header) (b : List Byte) (kind : ClaimKind) (s : State),
    (s.port seat).phase = .header → b.length = 8 → h.records = 1 → h.portals ≠ [] →
    ([ClaimKind.force, .floor, .cap, .freeze, .inject] : List ClaimKind)[byteAt b 0]? = some kind →
    let argument := wordAt b 2
    let deadline := tripleAt b 4
    let staged : Bool := kind == .force || kind == .floor || kind == .cap
    (staged = true → argument ≤ 11) → deadline ≤ 86400 →
    (kind = .inject →
      argument ≤ 20000 ∧ bitAt b 1 0 = false ∧ 0 < deadline ∧ deadline ≤ 3600) →
    (∀ p ∈ h.portals, ((s.arbiter p).claims.filter fun c => c.seat == seat).length < 4) →
    let number := s.allocate s.claimCounter 49
    let copy (p : Fin 4) : Claim :=
      { number := number, seat := seat, kind := kind, kept := bitAt b 1 0, pushedAt := s.tenths
        argument := if kind = .freeze then none else some argument
        captured := if kind = .freeze then some (s.arbiter p).effective else none
        deadline := if deadline = 0 then none else some (s.tenths + 10 * deadline) }
    let above : Bool := h.portals.any fun p =>
      staged && decide ((s.set p).stageCount - 1 < argument)
    let counter := if 65535 ≤ number then 1 else number + 1
    let joined (u : State) (p : Fin 4) : State :=
      let resolved := resolve p
        (u.setArbiter p { u.arbiter p with claims := (u.arbiter p).claims ++ [copy p] })
      if kind = .inject then evaluate p resolved else resolved
    ∃ t, exec (.pushClaim seat h b) s =
        done (answer seat .ok number true true (s.raisedFlag seat || above) false t) ∧
      t = h.portals.foldl joined { s with claimCounter := counter } ∧
      (kind = .inject → ∀ p ∈ h.portals, (t.eval p).status = .injected ∧
        (t.eval p).luminance = argument ∧
        (t.eval p).demand = argument * (s.record p).k / 100 ∧
        t.baseOf p = if s.baseOf p = .starting then .running else s.baseOf p) ∧
      (kind ≠ .inject → t.evals = s.evals ∧ t.base = s.base) ∧
      t.claimCounter = counter ∧
      (∀ p ∈ h.portals, (t.arbiter p).claims = (s.arbiter p).claims ++ [copy p] ∧
        (t.arbiter p).effective = (t.arbiter p).resolved) ∧
      (∀ p, p ∉ h.portals → t.arbiter p = s.arbiter p ∧ t.eval p = s.eval p ∧
        t.selector p = s.selector p ∧ rd t.zones p = rd s.zones p) ∧
      SameClock s t ∧ SameSets s t ∧ SameMeters s t ∧ SameTrips s t ∧ t.ports = s.ports

/-- Allocation (R66): with at most 48 claims held, the number taken is the first from the counter on,
with 1 after 65,535, that no list holds: it is held in no list, and every number from the counter up to
it is held. -/
def Obligations.AllocatedNumberIsHeldInNoList : Prop :=
  ∀ s : State, ClaimsWf s → 1 ≤ s.claimCounter → s.claimCounter ≤ 65535 →
    let held (n : Nat) : Prop := ∃ p, ∃ c ∈ (s.arbiter p).claims, c.number = n
    let onward (i : Nat) : Nat := (s.claimCounter - 1 + i) % 65535 + 1
    (∃ i, i ≤ 48 ∧ s.allocate s.claimCounter 49 = onward i ∧ ∀ j, j < i → held (onward j)) ∧
    ¬ held (s.allocate s.claimCounter 49) ∧
    1 ≤ s.allocate s.claimCounter 49 ∧ s.allocate s.claimCounter 49 ≤ 65535

/-- What becomes of a part when the claims of portal `p`'s list that meet `gone` leave it, each told by
`tell` (R64, R72, R75, R76): the others keep their order, the portal resolves once, and where the topmost
INJECT claim is among those that left, the portal is evaluated after that. -/
def Sys2Proof.Machine.ClaimsLeave (p : Fin 4) (gone : Claim → Bool) (tell : State → Claim → State)
    (s : State) : State :=
  let l := (s.arbiter p).claims
  let resolved := resolve p ((l.filter gone).foldl tell
    (s.setArbiter p { s.arbiter p with claims := l.filter fun c => !gone c }))
  if (l.reverse.find? fun c => c.kind == .inject).any gone then evaluate p resolved
  else if l.any gone then resolved
  else s

/-- WITHDRAW (R77): the checks, and every copy of an own claim leaves its list. WITHDRAW_ANY (R78):
refused to Seats A and B; from Seat L every copy leaves its list, whoever owns it, and an owner A or B is
told of each. Each portal that loses a copy resolves, and is evaluated after that if the copy was its
topmost INJECT claim (R75, R76). That the portals act in ascending order, each with all that follows, is
the model's choice (log 42), and so is the place of CLAIM_REMOVED before what follows (log 13). -/
def Obligations.WithdrawalRemovesEveryCopy : Prop :=
  (∀ (seat : Seat) (h : Header) (b : List Byte) (s : State),
    (s.port seat).phase = .header → b.length = 2 →
    let n := wordAt b 0
    let deny (code : ResultCode) : Prop := exec (.withdraw seat h b) s = done (denied seat code 0 s)
    (h.records ≠ 1 ∨ n = 0 → deny .badValue) ∧
    (h.records = 1 → n ≠ 0 → (∀ p, ∀ c ∈ (s.arbiter p).claims, c.number ≠ n) → deny .noClaim) ∧
    (h.records = 1 → n ≠ 0 → (∃ p, ∃ c ∈ (s.arbiter p).claims, c.number = n) →
      (∀ p, ∀ c ∈ (s.arbiter p).claims, c.number = n → c.seat ≠ seat) → deny .notOwner) ∧
    (h.records = 1 → n ≠ 0 → (∃ p, ∃ c ∈ (s.arbiter p).claims, c.number = n ∧ c.seat = seat) →
      ∃ t, exec (.withdraw seat h b) s = done (granted seat (maskOf (s.holders n)) true t) ∧
        t = ([0, 1, 2, 3] : List (Fin 4)).foldl
          (fun u p => ClaimsLeave p (fun c => c.number == n) (fun v _ => v) u) s ∧
        (∀ p, InjectionAfter p (fun c => c.number == n) s t) ∧
        (∀ p, (t.arbiter p).claims = (s.arbiter p).claims.filter fun c => c.number != n) ∧
        (∀ p ∈ s.holders n, (t.arbiter p).effective = (t.arbiter p).resolved) ∧
        (∀ p, p ∉ s.holders n → t.arbiter p = s.arbiter p ∧ t.selector p = s.selector p) ∧
        SameClock s t ∧ SameSets s t ∧ SameMeters s t ∧ SameTrips s t ∧ t.ports = s.ports ∧
        t.claimCounter = s.claimCounter)) ∧
  (∀ (h : Header) (b : List Byte) (s : State),
    (∀ seat, seat ≠ .L → (s.port seat).phase = .header →
      exec (.withdrawAny seat h b) s = .next (denied seat .seatDenied 0 s)) ∧
    ((s.port .L).phase = .header → b.length = 2 →
      let n := wordAt b 0
      let deny (code : ResultCode) : Prop := exec (.withdrawAny .L h b) s = done (denied .L code 0 s)
      (h.records ≠ 1 ∨ n = 0 → deny .badValue) ∧
      (h.records = 1 → n ≠ 0 → (∀ p, ∀ c ∈ (s.arbiter p).claims, c.number ≠ n) → deny .noClaim) ∧
      (h.records = 1 → n ≠ 0 → (∃ p, ∃ c ∈ (s.arbiter p).claims, c.number = n) →
        ∃ t, exec (.withdrawAny .L h b) s = done (granted .L (maskOf (s.holders n)) true t) ∧
          t = ([0, 1, 2, 3] : List (Fin 4)).foldl
            (fun u p => ClaimsLeave p (fun c => c.number == n)
              (fun v c => if c.seat = .L then v
                else postTo c.seat (.claimRemoved p n c.kind false) v) u) s ∧
          (∀ p, InjectionAfter p (fun c => c.number == n) s t) ∧
          (∀ p, (t.arbiter p).claims = (s.arbiter p).claims.filter fun c => c.number != n) ∧
          (∀ p ∈ s.holders n, (t.arbiter p).effective = (t.arbiter p).resolved) ∧
          (∀ p, p ∉ s.holders n → t.arbiter p = s.arbiter p ∧ t.selector p = s.selector p) ∧
          SameClock s t ∧ SameSets s t ∧ SameMeters s t ∧ SameTrips s t ∧ t.ports = s.ports ∧
          t.claimCounter = s.claimCounter ∧
          (∀ p c low, s.holders n = [p] →
            ((s.arbiter p).claims.filter fun c => c.number == n) = [c] → c.kind ≠ .inject →
            low = { s.arbiter p with claims := (s.arbiter p).claims.filter fun c => c.number != n } →
            low.resolved = low.effective →
            t = if c.seat = .L then s.setArbiter p low
              else postTo c.seat (.claimRemoved p n c.kind false) (s.setArbiter p low)))))

/-- CLAIM_EXPIRED (R79): the copy whose deadline is reached leaves its list, its owner is told by
CLAIM_EXPIRED whatever follows, and the portal resolves; if the copy was its topmost INJECT claim, the
portal is evaluated after that (R75, R76). No list holds a number twice (R64). An expiry that finds no such
copy has nothing to remove (R80). That CLAIM_EXPIRED stands before the STAGE_CHANGED and SOURCE_CHANGED that
follow is the model's choice (log 13). -/
def Obligations.ExpiredCopyLeavesItsList : Prop :=
  (∀ (p : Fin 4) (n : Nat) (s : State),
    (∀ c ∈ (s.arbiter p).claims, c.number = n → ∀ d ∈ c.deadline, s.tenths < d) →
    exec (.claimExpired p n) s = done s) ∧
  ∀ (p : Fin 4) (n d : Nat) (c : Claim) (before after : List Claim) (s : State),
    (s.arbiter p).claims = before ++ c :: after → c.number = n → c.deadline = some d →
    d ≤ s.tenths → (∀ x ∈ before ++ after, x.number ≠ n) →
    let topmost : Prop := c.kind = .inject ∧ ∀ x ∈ after, x.kind ≠ .inject
    let told : State := postTo c.seat (.claimExpired p n c.kind)
      (s.setArbiter p { s.arbiter p with claims := before ++ after })
    (topmost → exec (.claimExpired p n) s = done (evaluate p (resolve p told))) ∧
    (¬ topmost → exec (.claimExpired p n) s = done (resolve p told)) ∧
    ∃ t, exec (.claimExpired p n) s = .next t ∧ (t.arbiter p).claims = before ++ after ∧
      (∃ follow : List Event,
        (∀ e ∈ follow, (∃ x y z, e = .stageChanged p x y z) ∨ ∃ x, e = .sourceChanged p x) ∧
        ∀ seat, t.queue seat =
          ((if seat = c.seat then [Event.claimExpired p n c.kind] else []) ++ follow).foldl
            (fun q e => q.place e s.uptime) (s.queue seat)) ∧
      InjectionAfter p (fun x => x.number == n) s t ∧
      (t.arbiter p).effective = (t.arbiter p).resolved ∧
      (∀ q, q ≠ p → t.arbiter q = s.arbiter q ∧ t.selector q = s.selector q ∧
        t.eval q = s.eval q ∧ rd t.zones q = rd s.zones q) ∧
      SameClock s t ∧ SameSets s t ∧ SameMeters s t ∧ SameTrips s t ∧ t.ports = s.ports ∧
      t.claimCounter = s.claimCounter ∧
      (∀ low, low = { s.arbiter p with claims := before ++ after } → c.kind ≠ .inject →
        low.resolved = low.effective →
        t = beginTransactions (postTo c.seat (.claimExpired p n c.kind) (s.setArbiter p low)))

/-- A claim list holds at most 4 claims of any one seat, after every step (R64). -/
def Obligations.EveryStepKeepsTheQuota : Prop :=
  ∀ s t : State, ClaimsWf s → step s = .next t → ClaimsWf t

/-! ### Stage selection (chapter 3) -/

/-- An offer of demand (R46 to R49): up at once to the highest stage whose rise threshold it
reaches, else down one stage from below the fall threshold of a stage whose dwell has run, else no
move. An initial selection (R52, R56) and an entry to AT_TOP (R54): the stage, its dwell and the
demand in use, whatever stage was held before. DWELL_EXPIRY (R49): the timer is run; in FOLLOWING,
below the fall threshold, the stage falls by one, and the new stage's dwell starts. The rows and the top
stage of a set (R40). -/
def Obligations.StageMovesByOfferSelectionTopAndDwell : Prop :=
  (∀ (x : PortalSet) (i : Fin 12), x.row i.val = rd x.rows i ∧ x.top = x.stageCount - 1) ∧
  ((∀ (p : Fin 4) (d : Nat) (s : State),
    let x := s.set p
    let l := s.selector p
    let reached (i : Nat) : Prop := ∃ r, (x.row i).rise = some r ∧ r ≤ d
    let entered (i : Nat) : Selector :=
      { following := true, automatic := i, dwell := some (s.now + (x.row i).dwell * 1000),
        enteredAt := s.tenths, demandInUse := some d }
    let below : Prop := ∃ f, (x.row l.automatic).fall = some f ∧ d < f
    (∀ i, i < x.stageCount → l.automatic < i → reached i →
      (∀ j, i < j → j < x.stageCount → ¬ reached j) → (offer p d s).selector p = entered i) ∧
    ((∀ i, i < x.stageCount → l.automatic < i → ¬ reached i) →
      (0 < l.automatic → below → l.dwell = none →
        (offer p d s).selector p = entered (l.automatic - 1)) ∧
      (l.automatic = 0 ∨ ¬ below ∨ l.dwell ≠ none →
        offer p d s = s.setSelector p { l with following := true, demandInUse := some d }))) ∧
  (∀ (p : Fin 4) (d : Nat) (s : State),
    let x := s.set p
    let reached (i : Nat) : Prop := ∃ r, (x.row i).rise = some r ∧ r ≤ d
    let entered (i : Nat) : Selector :=
      { following := true, automatic := i, dwell := some (s.now + (x.row i).dwell * 1000),
        enteredAt := s.tenths, demandInUse := some d }
    (∀ i, 1 ≤ i → i < x.stageCount → reached i →
      (∀ j, i < j → j < x.stageCount → ¬ reached j) →
      (selectInitial p d s).selector p = entered i) ∧
    ((∀ i, 1 ≤ i → i < x.stageCount → ¬ reached i) →
      (selectInitial p d s).selector p = entered 0) ∧
    (enterTop p s).selector p =
      { following := false, automatic := x.stageCount - 1,
        dwell := some (s.now + (x.row (x.stageCount - 1)).dwell * 1000), enteredAt := s.tenths,
        demandInUse := none } ∧
    ((enterTop p s).arbiter p).automatic = x.stageCount - 1 ∧
    ((enterTop p s).arbiter p).top = x.stageCount - 1)) ∧
  (∀ (p : Fin 4) (e : Nat) (s : State), (s.selector p).dwell = some e → e ≤ s.now →
    let l := s.selector p
    let run : State := s.setSelector p { l with dwell := none }
    let falls : Prop := l.following = true ∧ 0 < l.automatic ∧ s.undercuts p = true
    let low := l.automatic - 1
    (¬ falls → l.following = false → exec (.dwellExpiry p) s = .next run) ∧
    (¬ falls → l.following = true → exec (.dwellExpiry p) s = done run) ∧
    (falls → ∃ t, exec (.dwellExpiry p) s = .next t ∧
      t.selector p =
        { l with automatic := low, dwell := some (s.now + ((s.set p).row low).dwell * 1000),
                 enteredAt := s.tenths } ∧
      (t.arbiter p).automatic = low ∧ (t.arbiter p).effective = (t.arbiter p).resolved ∧
      (t.arbiter p).claims = (s.arbiter p).claims ∧
      (∀ q, q ≠ p → SamePortal q s t) ∧
      SameClock s t ∧ SameSets s t ∧ SameMeters s t ∧ SameSource s t ∧ SameTrips s t ∧
      t.ports = s.ports ∧ t.claimCounter = s.claimCounter))

/-! ### Luminance intake (chapter 2) -/

/-- The estimate (R25): the median at the entry to VALID; on each later accepted reading up to the
median of the newest three, or down to the mean of the newest N, or unchanged; and the evaluator is
handed each. METER_FLAGS and METER_STATE are posted before that (their order: the model's choice, log
13). -/
def Obligations.EstimateRisesToTheMedianAndFallsToTheMean : Prop :=
  ∀ (m : Fin 8) (p : Fin 4) (f : ReadingFrame) (burst : Burst) (s : State),
    (burst.frame false).bind readingFrameOf = some f → f.sensor = false → f.luminance ≤ 20000 →
    s.meterPortal m = some p → (s.meter m).duplicates f.seq = false →
    let x := s.meter m
    let reading : Reading := { seq := f.seq, luminance := f.luminance, arrival := s.tenths }
    let ring := if x.ring.length < 16 then x.ring ++ [reading] else x.ring.tail ++ [reading]
    let next (state : MeterState) (e : Option Nat) : Meter :=
      { state := state, ring := ring, estimate := e, badCount := 0, lastSeq := some f.seq,
        window := f.window, heater := f.heater,
        staleDeadline := some (s.tenths + 10 * (s.record p).tStale) }
    let told (u : State) : State :=
      if x.window = f.window ∧ x.heater = f.heater then u
      else postAll (.meterFlags m f.window f.heater) u
    (∀ a b, x.state = .starting → x.ring = [a, b] →
      ∃ u, (u = a.luminance ∨ u = b.luminance ∨ u = f.luminance) ∧
        2 ≤ ([a.luminance, b.luminance, f.luminance].filter (· ≤ u)).length ∧
        2 ≤ ([a.luminance, b.luminance, f.luminance].filter (u ≤ ·)).length ∧
        exec (.readingFrame m burst) s = done (evaluate p (postAll
          (.meterState p m .readings .starting .valid)
          ((told (s.setMeter m (next .valid (some u)))).setEval p
            { s.eval p with source := .live, holdSince := none })))) ∧
    (∀ e old a b c, x.state = .valid → x.estimate = some e → ring = old ++ [a, b, c] →
      ∃ u, (u = a.luminance ∨ u = b.luminance ∨ u = c.luminance) ∧
        2 ≤ ([a.luminance, b.luminance, c.luminance].filter (· ≤ u)).length ∧
        2 ≤ ([a.luminance, b.luminance, c.luminance].filter (u ≤ ·)).length ∧
        let newest := ring.drop (ring.length - (s.record p).window)
        let w := (newest.map Reading.luminance).sum / newest.length
        exec (.readingFrame m burst) s = done (evaluate p (told (s.setMeter m
          (next .valid (some (if e < u then u else if w < e then w else e)))))))

/-- The frames of meter and lamp lines (R127, R176, R180): the LEVEL and POLL frames that the part
sends, with a check sum that makes each add up to 0; the frame that bytes received up to a silence are,
where they begin after at least 1 ms of silence or with the first byte after the part's own frame (the
model's choices: other bytes are ignored, log 27, and a command brings the bytes of one frame, log 19);
and which frames are undamaged, and what they carry. -/
def Obligations.LineFramesAreAssembledFormedAndChecked : Prop :=
  (∀ (a : Fin 16) (level : Nat),
    (∃ c : Byte, levelFrame a level = [byte (16 + a.val), byte (level / 256), byte level, c]) ∧
    (∃ c : Byte, pollFrame a = [byte (32 + a.val), c]) ∧
    ((levelFrame a level).map BitVec.toNat).sum % 256 = 0 ∧
    ((pollFrame a).map BitVec.toNat).sum % 256 = 0) ∧
  (∀ (first : Bool) (burst : Burst) (bytes : List Byte),
    burst.frame first = some bytes ↔
      bytes = burst.bytes ∧ bytes ≠ [] ∧ (first = true ∨ burst.silence = true)) ∧
  (∀ bytes : List Byte,
    let good : Prop := bytes.length = 5 ∧ (bytes.map BitVec.toNat).sum % 256 = 0
    (readingFrameOf bytes ≠ none ↔ good) ∧
    (good → readingFrameOf bytes = some
      { seq := byteAt bytes 0, luminance := byteAt bytes 1 * 256 + byteAt bytes 2,
        window := bitAt bytes 3 0, heater := bitAt bytes 3 1, sensor := bitAt bytes 3 2 }) ∧
    (∀ f, statusFrameOf bytes = some f ↔
      good ∧ byteAt bytes 0 = 48 + f.addr.val ∧ f.level ≤ 1000 ∧
        f.level = byteAt bytes 1 * 256 + byteAt bytes 2 ∧ f.lamp = bitAt bytes 3 0 ∧
        f.supply = bitAt bytes 3 1 ∧ f.closed = bitAt bytes 3 2))

/-- What follows when meter `m` of portal `p`, VALID in `s`, has left VALID in `u` (R27, R28, R30): a meter
source of LIVE stays LIVE while another bound meter is VALID; else it is HOLD, or LOST where Thold is 0,
with the largest estimate that was VALID; and the portal is evaluated. -/
def Sys2Proof.Machine.LeavesValid (p : Fin 4) (m : Fin 8) (s u : State) : State :=
  let r := s.record p
  let another : Bool := (List.finRange 8).any fun n =>
    n != m && (r.slot0 == some n || r.slot1 == some n) && (s.meter n).state == .valid
  let e := s.eval p
  evaluate p
    (if another = true ∨ e.source ≠ .live then u
     else if 0 < r.tHold then
      u.setEval p { e with source := .hold, holdSince := some s.now, held := s.bestEstimate p }
     else u.setEval p { e with source := .lost, held := s.bestEstimate p })

/-- READING_FRAME (R15 to R17, R20, R22 to R24): what is discarded; the items that every other frame
updates, with METER_FLAGS if a flag changed; the first readings of STARTING; recovery; and the frames
that send a meter to FAULTED, with METER_STATE and its cause. That METER_FLAGS stands before
METER_STATE, and both before what an evaluation posts, is the model's choice (log 13). -/
def Obligations.ReadingFrameActsByItsClassAndTheMeterState : Prop :=
  ∀ (m : Fin 8) (burst : Burst) (s : State),
    let x := s.meter m
    let run := exec (.readingFrame m burst) s
    ((burst.frame false).bind readingFrameOf = none ∨ s.meterPortal m = none ∨ x.state = .unused →
      run = .next s) ∧
    (∀ f p, (burst.frame false).bind readingFrameOf = some f → s.meterPortal m = some p →
      x.state ≠ .unused →
      (x.duplicates f.seq = true ↔ ∃ r ∈ x.ring.getLast?, r.seq = f.seq) ∧
      (x.duplicates f.seq = true → run = .next s) ∧
      (x.duplicates f.seq = false →
        let noted : Meter :=
          { x with lastSeq := some f.seq, window := f.window, heater := f.heater }
        let reading : Reading := { seq := f.seq, luminance := f.luminance, arrival := s.tenths }
        let deadline := some (s.tenths + 10 * (s.record p).tStale)
        let faulted : Meter :=
          { noted with state := .faulted, estimate := none, badCount := 0, staleDeadline := none }
        let set (y : Meter) : State :=
          if x.window = f.window ∧ x.heater = f.heater then s.setMeter m y
          else postAll (.meterFlags m f.window f.heater) (s.setMeter m y)
        let toFault (cause : MeterCause) : State :=
          let u := postAll (.meterState p m cause x.state .faulted) (set faulted)
          if x.state = .valid then LeavesValid p m s u else u
        (f.sensor = true → x.state = .faulted → run = done (set noted)) ∧
        (f.sensor = true → x.state ≠ .faulted → run = done (toFault .sensor)) ∧
        (f.sensor = false → 20000 < f.luminance →
          (x.state = .faulted → run = done (set noted)) ∧
          (x.state = .starting → run = done (toFault .range)) ∧
          (x.state = .valid ∨ x.state = .stale → 2 ≤ x.badCount → run = done (toFault .range)) ∧
          (x.state = .valid ∨ x.state = .stale → x.badCount < 2 →
            run = done (set { noted with badCount := x.badCount + 1 }))) ∧
        (f.sensor = false → f.luminance ≤ 20000 → x.state = .starting → x.ring.length < 2 →
          run = done (set { noted with
            ring := x.ring ++ [reading], badCount := 0, staleDeadline := deadline })) ∧
        (f.sensor = false → f.luminance ≤ 20000 → x.state = .stale ∨ x.state = .faulted →
          run = done (postAll (.meterState p m .recovered x.state .starting) (set { noted with
            state := .starting, ring := [reading], estimate := none, badCount := 0,
            staleDeadline := deadline }))) ∧
        ∃ t, run = .next t ∧
          (f.sensor = true → t.meter m = if x.state = .faulted then noted else faulted) ∧
          (f.sensor = false → 20000 < f.luminance →
            t.meter m =
              if x.state = .faulted then noted
              else if x.state = .starting ∨ 2 ≤ x.badCount then faulted
              else { noted with badCount := x.badCount + 1 }) ∧
          (∀ n, n ≠ m → t.meter n = s.meter n) ∧
          (x.state ≠ .valid → (x.state = .starting → x.ring.length ≠ 2) →
            SameSource s t ∧ SameStage s t ∧ SameLight s t) ∧
          SameClock s t ∧ SameSets s t ∧ SameTrips s t ∧ t.ports = s.ports))

/-- STALE_DEADLINE (R20, R21, R24): a VALID meter is STALE with its estimate kept and its portal is
evaluated; a STARTING meter's ring is emptied with no event. HOLD_TIMER_EXPIRY (R27, R28, R54): HOLD
becomes LOST and a RUNNING portal goes to its top stage; beneath an INJECT claim only the meter
source changes. Every seat is told SOURCE_CHANGED(LOST), and STAGE_CHANGED if the effective stage
changes (R32, R74). MISMATCH (R34): the event with both meters and their estimates, and the mark; A,
demand and the source status do not change. That METER_STATE stands before what the evaluation posts, and
SOURCE_CHANGED before STAGE_CHANGED, is the model's choice (log 13). -/
def Obligations.SilentMetersExpiredHoldsAndMismatchesAreTold : Prop :=
  (∀ (m : Fin 8) (p : Fin 4) (d : Nat) (s : State),
    s.meterPortal m = some p → (s.meter m).staleDeadline = some d → d ≤ s.tenths →
    ((s.meter m).state = .starting →
      exec (.staleDeadline m) s =
        .next (s.setMeter m { s.meter m with ring := [], staleDeadline := none })) ∧
    ((s.meter m).state = .valid →
      let stale : State :=
        postAll (.meterState p m .timeout .valid .stale)
          (s.setMeter m { s.meter m with state := .stale, staleDeadline := none })
      exec (.staleDeadline m) s = done (LeavesValid p m s stale))) ∧
  ((∀ (p : Fin 4) (e : Nat) (s : State), (s.eval p).source = .hold → s.holdEnd p = some e →
    e ≤ s.now →
    ((s.eval p).status ≠ .hold → exec (.holdTimerExpiry p) s =
      .next (s.setEval p { s.eval p with source := .lost, holdSince := none })) ∧
    ((s.eval p).status = .hold → exec (.holdTimerExpiry p) s =
      done (evaluate p (s.setEval p { s.eval p with source := .lost, holdSince := none }))) ∧
    ((s.eval p).status = .hold → (s.arbiter p).topInject = none → s.baseOf p = .running →
      ∃ t, exec (.holdTimerExpiry p) s = .next t ∧ (t.eval p).source = .lost ∧
        (t.eval p).status = .lost ∧ (t.eval p).holdSince = none ∧
        (t.eval p).luminance = (s.eval p).luminance ∧ (t.eval p).demand = (s.eval p).demand ∧
        t.selector p =
          { following := false, automatic := (s.set p).top,
            dwell := some (s.now + ((s.set p).row (s.set p).top).dwell * 1000),
            enteredAt := s.tenths, demandInUse := none } ∧
        (let low : Arbiter :=
          { s.arbiter p with automatic := (s.set p).top, top := (s.set p).top }
        ∀ seat,
          let told := (s.queue seat).place (.sourceChanged p .lost) s.uptime
          t.queue seat =
            if low.resolved = low.effective then told
            else told.place (.stageChanged p low.effective low.resolved (s.set p).top) s.uptime) ∧
        (∀ q, q ≠ p → SamePortal q s t) ∧ t.base = s.base ∧
        SameClock s t ∧ SameSets s t ∧ SameMeters s t ∧ SameTrips s t ∧ t.ports = s.ports)) ∧
  (∀ (p : Fin 4) (a b : Fin 8) (e : Nat) (s : State),
    (s.record p).slot0 = some a → (s.record p).slot1 = some b → s.mismatchEnd p = some e →
    e ≤ s.now →
    exec (.mismatch p) s = .next
      ((postAll (.mismatch p a ((s.meter a).estimate.getD 0) b ((s.meter b).estimate.getD 0)) s).setEval
        p { s.eval p with mismatchSince := none, mismatchReported := true })))

/-- An evaluation (R29 to R31), in every base state: the source status, the access luminance by it,
and the demand that it offers; in LIVE the luminance is the largest estimate of the bound meters that are
VALID. That the luminance is 0 in source status NONE, also beneath an INJECT
claim that has ended, is the model's reading (log 23). -/
def Obligations.EvaluationFormsStatusLuminanceAndDemand : Prop :=
  ∀ (p : Fin 4) (s : State),
    let e := s.eval p
    let t := evaluate p s
    let status : SourceStatus := (t.eval p).status
    let valid (m : Fin 8) : Prop :=
      ((s.record p).slot0 = some m ∨ (s.record p).slot1 = some m) ∧ (s.meter m).state = .valid
    let estimate (m : Fin 8) : Nat := (s.meter m).estimate.getD 0
    (∀ m, valid m → estimate m ≤ s.bestEstimate p) ∧
    ((∃ m, valid m) → ∃ m, valid m ∧ estimate m = s.bestEstimate p) ∧
    ((∀ m, ¬ valid m) → s.bestEstimate p = 0) ∧
    (∀ c, (s.arbiter p).topInject = some c → status = .injected ∧
      (t.eval p).luminance = c.argument.getD 0) ∧
    ((s.arbiter p).topInject = none →
      (e.source = .live → status = .live ∧ (t.eval p).luminance = s.bestEstimate p) ∧
      (e.source = .hold → status = .hold ∧ (t.eval p).luminance = e.held) ∧
      (e.source = .lost → status = .lost ∧ (t.eval p).luminance = e.luminance) ∧
      (e.source = .none → status = .none ∧ (t.eval p).luminance = 0)) ∧
    ((status = .live ∨ status = .hold ∨ status = .injected) →
      (t.eval p).demand = (t.eval p).luminance * (s.record p).k / 100) ∧
    ((status = .lost ∨ status = .none) → (t.eval p).demand = e.demand) ∧
    (s.baseOf p ≠ .starting ∨ e.source ≠ .none → (t.eval p).source = e.source) ∧
    (t.eval p).holdSince = e.holdSince ∧
    (∀ q, q ≠ p → SamePortal q s t) ∧ SameClock s t ∧ SameSets s t ∧ SameMeters s t ∧ SameTrips s t

/-- What an evaluation does beside the values it forms: a STARTING portal becomes RUNNING (R2, R27,
R55), a change of source status is posted (R32), the mismatch timer starts and stops (R33), and the
Stage Selector is handed an offer, an initial selection or AT_TOP (R54 to R57). That SOURCE_CHANGED stands
before a STAGE_CHANGED that follows is the model's choice (log 13). -/
def Obligations.EvaluationStartsThePortalAndHandsTheDemandOver : Prop :=
  ∀ (p : Fin 4) (s : State),
    let t := evaluate p s
    let e := s.eval p
    let before := e.status
    let status := (t.eval p).status
    let starts : Prop := s.baseOf p = .starting ∧ (status = .live ∨ status = .injected)
    let pair : Option (Nat × Nat) :=
      match (s.record p).slot0, (s.record p).slot1 with
      | some a, some b =>
        if (s.meter a).state = .valid ∧ (s.meter b).state = .valid then
          some ((s.meter a).estimate.getD 0, (s.meter b).estimate.getD 0)
        else none
      | _, _ => none
    let differ : Prop := ∃ x ∈ pair, max x.1 x.2 < 4 * (max x.1 x.2 - min x.1 x.2)
    -- STARTING becomes RUNNING on LIVE or INJECTED, and a source of NONE becomes LOST (R2, R27)
    (starts → t.baseOf p = .running ∧
      (t.eval p).source = if e.source = .none then .lost else e.source) ∧
    (¬ starts → t.baseOf p = s.baseOf p ∧ (t.eval p).source = e.source) ∧
    -- the mismatch timer (R33)
    (differ → (t.eval p).mismatchReported = e.mismatchReported ∧
      (t.eval p).mismatchSince =
        (if e.mismatchReported = true ∨ e.mismatchSince ≠ none then e.mismatchSince
          else some s.now)) ∧
    (¬ differ → (t.eval p).mismatchReported = false ∧ (t.eval p).mismatchSince = none) ∧
    -- what the Stage Selector is handed (R54 to R57), once a change of status is posted (R32)
    ∃ u, u.eval p = t.eval p ∧ u.baseOf p = t.baseOf p ∧
      (∀ seat, u.queue seat =
        if status = before then s.queue seat
        else (s.queue seat).place (.sourceChanged p status) s.uptime) ∧
      SameClock s u ∧ SameSets s u ∧ SameMeters s u ∧ SameStage s u ∧ SameLight s u ∧
      SameTrips s u ∧ u.lines = s.lines ∧ u.ports = s.ports ∧
      (starts → t = offer p (t.eval p).demand u) ∧
      (¬ starts → s.baseOf p ≠ .running → t = u) ∧
      (s.baseOf p = .running →
        (status = .lost → before ≠ .lost → t = enterTop p u) ∧
        (status = .lost → before = .lost → t = u) ∧
        (status = .live ∨ status = .hold ∨ status = .injected →
          (before = .lost → t = selectInitial p (t.eval p).demand u) ∧
          (before ≠ .lost → t = offer p (t.eval p).demand u)))

/-! ### Zones (chapters 1 and 5) -/

/-- The split of a zone level (R6), and the light of a zone at the dimmed level of R7, which rounds
down; and the level that a channel's min level makes of one (R7). -/
def Obligations.SplitSharesTheLevelBetweenDimmedAndBoost : Prop :=
  (∀ (r : ChannelRecord) (level : Nat), r.raised level =
    if r.switched = false ∧ 0 < level ∧ level < r.minLevel then r.minLevel else level) ∧
  ∀ b level : Nat, b ≤ 500 → level ≤ 1000 →
    let d := dimmedShare b level
    let boost := needsBoost b level
    let light := shareLevel b d * (1000 - b) / 1000 + if boost then b else 0
    (b = 0 → boost = false ∧ d = level) ∧
    (0 < b → level ≤ 1000 - b → boost = false ∧ d = level) ∧
    (0 < b → 1000 - b < level →
      boost = true ∧ d = level - b ∧ 1000 - 2 * b + 1 ≤ d ∧ 1 ≤ d ∧ d ≤ 1000 - b) ∧
    500 ≤ 1000 - b ∧ 1000 - b ≤ 1000 ∧ (d + if boost then b else 0) = level ∧
    light ≤ level ∧ level ≤ light + 1 ∧
    ∀ (p : Fin 4) (z : Fin 5) (zn : Zone) (s : State), s.boostShare p z = b → zn.working = level →
      ∀ k ∈ s.dimmed p z, s.only k → zn.switched = boost → zn.confirmed = true →
        ((plan p z zn s).channel k.cfg.channel).target = some (k.cfg.raised (d * 1000 / (1000 - b)))

/-- A plan (R87, R88): the state it enters for each row of the table, the target of each DIMMED
channel of the zone, and the command to its switched channel. -/
def Obligations.PlanEntersTheStateOfItsRow : Prop :=
  ∀ (p : Fin 4) (z : Fin 5) (zn : Zone) (s : State),
    let b := s.boostShare p z
    let boost : Prop := 0 < b ∧ 1000 - b < zn.working
    let without := zn.working * 1000 / (1000 - b)
    let withBoost := (zn.working - b) * 1000 / (1000 - b)
    let t := plan p z zn s
    let there (level : Nat) : Bool := rampDone p z (steer p z level s)
    let ramping (x : Zone) (level : Nat) : Zone :=
      { x with state := if there level then .steady else .ramping, overlap := none }
    let waiting (x : Zone) : Zone :=
      { x with state := .boostOnWait, overlap := none, confirm := some (s.now + 2000) }
    let planned (x : Zone) (aim : Option Nat) (on : Bool) : Prop :=
      t.zone p z = some x ∧
      (∀ k ∈ s.dimmed p z, s.only k → (t.channel k.cfg.channel).target =
        match aim with
        | some level => some (k.cfg.raised level)
        | none => (s.channel k.cfg.channel).level.map k.cfg.raised) ∧
      (∀ k, (s.set p).switchedOf p z = some k → s.only k →
        (t.channel k.cfg.channel).target = some (if on then 1000 else 0) ∧
        ((s.channel k.cfg.channel).hand = none → s.tripped p = false →
          (t.channel k.cfg.channel).level = some (if on then 1000 else 0)))
    (b = 0 → planned
      (ramping { zn with switched := false, confirmed := false, confirm := none, degraded := false }
        without) (some without) false) ∧
    (0 < b → ¬ boost → zn.switched = false → planned (ramping zn without) (some without) false) ∧
    (0 < b → ¬ boost → zn.switched = true → planned
      (if there without then
        { zn with state := .overlapOff, overlap := some (s.now + (s.record p).overlap * 100) }
       else { zn with state := .boostOffPrep, overlap := none }) (some without) true) ∧
    (boost → zn.switched = false →
      planned (waiting { zn with switched := true, confirmed := false }) none true) ∧
    (boost → zn.switched = true → zn.confirmed = true →
      planned (ramping zn withBoost) (some withBoost) true) ∧
    (boost → zn.switched = true → zn.confirmed = false → zn.degraded = false →
      planned (waiting zn) none true) ∧
    (boost → zn.switched = true → zn.confirmed = false → zn.degraded = true →
      planned (ramping zn 1000) (some 1000) true) ∧
    SameButZone p z s t ∧ t.queues = s.queues

/-- The completion of a ramp (R90): every DIMMED channel in AUTO is at its target; it acts in
RAMPING and BOOST_OFF_PREP only. A zone target arrives (R89): what becomes of it in each state. The
three timer expiries of a zone (R91, R92, R94): the latest target is taken, and the zone plans
afresh, from a switched target of OFF, or DEGRADED after CHANNEL_FAULT. -/
def Obligations.ZonesActOnCompletionTargetsAndTimers : Prop :=
  ((∀ (p : Fin 4) (z : Fin 5) (zn : Zone) (s : State), s.zone p z = some zn →
    (rampDone p z s = true ↔ ∀ k ∈ s.dimmed p z, (s.channel k.cfg.channel).hand = none →
      (s.channel k.cfg.channel).level = (s.channel k.cfg.channel).target) ∧
    (rampDone p z s = true → zn.state = .ramping →
      testComplete p z s = s.setZone p z (some { zn with state := .steady })) ∧
    (rampDone p z s = true → zn.state = .boostOffPrep →
      testComplete p z s = s.setZone p z
        (some { zn with
          state := .overlapOff, overlap := some (s.now + (s.record p).overlap * 100) })) ∧
    (rampDone p z s = false ∨ (zn.state ≠ .ramping ∧ zn.state ≠ .boostOffPrep) →
      testComplete p z s = s)) ∧
  (∀ (p : Fin 4) (z : Fin 5) (s : State), s.zone p z = none → testComplete p z s = s) ∧
  (∀ (p : Fin 4) (z : Fin 5) (target : Nat) (zn : Zone) (s : State), s.zone p z = some zn →
    let boost : Prop := 0 < s.boostShare p z ∧ 1000 - s.boostShare p z < target
    (zn.state = .steady ∨ zn.state = .ramping → zoneArrive p z target s =
      plan p z { zn with working := target, latest := none } s) ∧
    (zn.state = .boostOnWait ∨ zn.state = .overlapOn → zoneArrive p z target s =
      s.setZone p z (some { zn with latest := some target })) ∧
    (zn.state = .boostOffPrep → zoneArrive p z target s = plan p z { zn with working := target } s) ∧
    (zn.state = .overlapOff → boost → zoneArrive p z target s =
      plan p z { zn with working := target, latest := none, overlap := none } s) ∧
    (zn.state = .overlapOff → ¬ boost → zoneArrive p z target s =
      s.setZone p z (some { zn with latest := some target })) ∧
    (zn.state = .held → zoneArrive p z target s =
      s.setZone p z (some { zn with working := target })))) ∧
  (∀ (p : Fin 4) (z : Fin 5) (zn : Zone) (e : Nat) (s : State), s.zone p z = some zn → e ≤ s.now →
    let taken : Zone := { zn with working := zn.latest.getD zn.working, latest := none }
    (zn.state = .overlapOn → zn.overlap = some e →
      exec (.overlapOnExpiry p z) s = done (plan p z { taken with overlap := none } s)) ∧
    (zn.state = .overlapOff → zn.overlap = some e →
      exec (.overlapOffExpiry p z) s = done (plan p z
        { taken with switched := false, confirmed := false, degraded := false, confirm := none,
                     overlap := none } s)) ∧
    (zn.state ≠ .held → zn.confirm = some e →
      (∀ k, (s.set p).switchedOf p z = some k →
        exec (.confirmTimeout p z) s = done (plan p z { taken with confirm := none, degraded := true }
          (postAll (.channelFault p k.cfg.channel .boostUnconfirmed) s))) ∧
      ((s.set p).switchedOf p z = none →
        exec (.confirmTimeout p z) s =
          done (plan p z { taken with confirm := none, degraded := true } s))))

/-- A confirmation (R91, R95) and a loss of boost (R96), by the state of the zone that they reach.
-/
def Obligations.ConfirmationAndLossOfBoostActByTheZoneState : Prop :=
  ∀ (p : Fin 4) (z : Fin 5) (zn : Zone) (k : Circuit) (s : State), s.zone p z = some zn →
    (s.set p).switchedOf p z = some k →
    let boost : Prop := 0 < s.boostShare p z ∧ 1000 - s.boostShare p z < zn.working
    let confirmed : Zone := { zn with confirmed := true, confirm := none, degraded := false }
    let overlapped : Zone :=
      { confirmed with
        state := .overlapOn, overlap := some (s.now + (s.record p).overlap * 100) }
    let ok : State := postAll (.channelOk p k.cfg.channel .boostConfirmed) s
    let fault : State := postAll (.channelFault p k.cfg.channel .boostUnconfirmed) s
    (zn.switched = false ∨ zn.state = .held → confirmation p z s = s) ∧
    (zn.switched = true → zn.degraded = false → zn.state = .boostOnWait →
      confirmation p z s = s.setZone p z (some overlapped)) ∧
    (zn.switched = true → zn.degraded = false → zn.state ≠ .held → zn.state ≠ .boostOnWait →
      confirmation p z s = s.setZone p z (some confirmed)) ∧
    (zn.switched = true → zn.degraded = true → zn.state ≠ .held → boost →
      confirmation p z s = holdDimmed p z (ok.setZone p z (some overlapped))) ∧
    (zn.switched = true → zn.degraded = true → zn.state ≠ .held → ¬ boost →
      confirmation p z s = ok.setZone p z (some confirmed)) ∧
    (zn.confirmed = false → boostLost p z s = s) ∧
    (zn.confirmed = true → zn.switched = true → zn.state = .steady ∨ zn.state = .ramping →
      boostLost p z s = plan p z { zn with confirmed := false, degraded := true } fault) ∧
    (zn.confirmed = true → zn.state = .overlapOn →
      boostLost p z s = plan p z
        { zn with working := zn.latest.getD zn.working, latest := none, confirmed := false,
                  overlap := none, degraded := true } fault) ∧
    (zn.confirmed = true → zn.state = .boostOffPrep ∨ zn.state = .overlapOff →
      boostLost p z s = s.setZone p z (some { zn with confirmed := false }))

/-! ### Channels (chapter 5) -/

/-- TAKE_CHANNEL (R102, R103): the checks, and HAND at the commanded level. RELEASE_CHANNEL (R87, R99,
R102, R105): the checks, and the return to AUTO. A DIMMED channel of a zone in BOOST_ON_WAIT or
OVERLAP_ON takes its commanded level as its target, a SWITCHED one is commanded at its target unless its
portal is TRIPPED, and the seat is told HAND_RELEASED. Both are followed by the completion test of the
channel's zone (R90). -/
def Obligations.TakeAndReleaseChannelChangeBetweenAutoAndHand : Prop :=
  let tested (k : Circuit) (u : State) : State :=
    match k.cfg.zone with
    | none => u
    | some z => testComplete k.portal z u
  (∀ (seat : Seat) (h : Header) (b : List Byte) (s : State),
    (s.port seat).phase = .header → b.length = 4 →
    let run := exec (.takeChannel seat h b) s
    (h.records ≠ 1 → run = done (denied seat .badValue 0 s)) ∧
    (h.records = 1 → s.requested (byteAt b 0) = none → run = done (denied seat .badValue 1 s)) ∧
    (∀ k, h.records = 1 → s.requested (byteAt b 0) = some k →
      let c := k.cfg.channel
      let level := (s.channel c).level.getD 0
      (∀ x, (s.channel c).hand = some x → x.seat ≠ seat →
        run = done (denied seat .held (seatIx x.seat).val s)) ∧
      (∀ x, (s.channel c).hand = some x → x.seat = seat → run = done (granted seat level false s)) ∧
      ((s.channel c).hand = none →
        run = done (granted seat level false (tested k
          (s.setChannel c { s.channel c with hand := some { seat := seat, level := level } }))) ∧
        ∃ t, run = done (granted seat level false t) ∧
          t.channels =
            wr s.channels c { s.channel c with hand := some { seat := seat, level := level } } ∧
          (∀ p z, ¬ (p = k.portal ∧ k.cfg.zone = some z) → t.zone p z = s.zone p z) ∧
          { t with zones := s.zones, channels := s.channels } = s))) ∧
  (∀ (seat : Seat) (h : Header) (b : List Byte) (s : State),
    (s.port seat).phase = .header → b.length = 4 →
    let run := exec (.releaseChannel seat h b) s
    (h.records ≠ 1 → run = done (denied seat .badValue 0 s)) ∧
    (h.records = 1 → s.requested (byteAt b 0) = none → run = done (denied seat .badValue 1 s)) ∧
    (∀ k, h.records = 1 → s.requested (byteAt b 0) = some k →
      let c := k.cfg.channel
      ((s.channel c).hand = none → run = done (denied seat .notHolder 0 s)) ∧
      (∀ x, (s.channel c).hand = some x → x.seat ≠ seat →
        run = done (denied seat .held (seatIx x.seat).val s)) ∧
      (∀ x, (s.channel c).hand = some x → x.seat = seat →
        let zone : Option Zone := k.cfg.zone.bind fun z => s.zone k.portal z
        let waits : Bool := zone.any fun zn => zn.state == .boostOnWait || zn.state == .overlapOn
        let free : Channel := { s.channel c with hand := none }
        let aimed : Channel :=
          if k.cfg.switched = false ∧ waits = true then
            { free with target := free.level.map fun level =>
                if 0 < level ∧ level < k.cfg.minLevel then k.cfg.minLevel else level }
          else free
        let aim := aimed.target.getD 0
        let line := s.lampLine k.portal
        let driven : State :=
          if k.cfg.switched = false ∨ s.tripped k.portal = true ∨ aimed.level = some aim then
            s.setChannel c aimed
          else if line.carries k.addr c then
            (s.setChannel c { aimed with level := some aim }).setLine k.portal
              (line.enter k.addr aim c)
          else s.setChannel c { aimed with level := some aim }
        run = done (granted seat 0
          ((driven.channel c).level.getD 0 != (s.channel c).level.getD 0)
          (postTo seat (.handReleased k.portal c .released) (tested k driven))) ∧
        ∃ t, run = done (granted seat 0
            ((t.channel c).level.getD 0 != (s.channel c).level.getD 0) t) ∧
          (t.channel c).hand = none ∧
          (k.cfg.switched = false → (t.channel c).level = (s.channel c).level) ∧
          (k.cfg.switched = true → s.tripped k.portal = true →
            (t.channel c).level = (s.channel c).level) ∧
          (k.cfg.switched = true → s.tripped k.portal = false →
            (t.channel c).level = some ((s.channel c).target.getD 0) ∧
            (t.channel c).target = (s.channel c).target) ∧
          (∀ d, d ≠ c → t.channel d = s.channel d) ∧
          (∀ p z, ¬ (p = k.portal ∧ k.cfg.zone = some z) → t.zone p z = s.zone p z) ∧
          t.queue seat = (s.queue seat).place (.handReleased k.portal c .released) s.uptime ∧
          (∀ y, y ≠ seat → t.queue y = s.queue y) ∧
          SameClock s t ∧ SameSets s t ∧ SameDaylight s t ∧ SameTrips s t ∧ t.ports = s.ports)))

/-- SET_CHANNEL (R104): the checks, the level raised to the min level, and the command at once
unless the portal is TRIPPED. -/
def Obligations.SetChannelCommandsTheHandLevel : Prop :=
  ∀ (seat : Seat) (h : Header) (b : List Byte) (s : State),
    (s.port seat).phase = .header → b.length = 4 →
    let run := exec (.setChannel seat h b) s
    (h.records ≠ 1 → run = done (denied seat .badValue 0 s)) ∧
    (h.records = 1 → s.requested (byteAt b 0) = none → run = done (denied seat .badValue 1 s)) ∧
    (∀ k, h.records = 1 → s.requested (byteAt b 0) = some k →
      let c := k.cfg.channel
      let ask := wordAt b 2
      let level :=
        if k.cfg.switched = false ∧ 0 < ask ∧ ask < k.cfg.minLevel then k.cfg.minLevel else ask
      let ok : Prop := if k.cfg.switched then ask = 0 ∨ ask = 1000 else ask ≤ 1000
      let raised : Bool := s.raisedFlag seat || level != ask
      ((s.channel c).hand = none → run = done (denied seat .notHolder 0 s)) ∧
      (∀ x, (s.channel c).hand = some x → x.seat ≠ seat →
        run = done (denied seat .held (seatIx x.seat).val s)) ∧
      (∀ x, (s.channel c).hand = some x → x.seat = seat →
        (¬ ok → run = done (denied seat .badValue 2 s)) ∧
        (ok → s.tripped k.portal = true →
          run = done (answer seat .ok ((s.channel c).level.getD 0) true false raised false
            (s.setChannel c { s.channel c with hand := some { seat := seat, level := level } }))) ∧
        (ok → s.tripped k.portal = false →
          ∃ t, run = done (answer seat .ok level true (level != (s.channel c).level.getD 0) raised
              false t) ∧
            t.channels = wr s.channels c
              { s.channel c with
                hand := some { seat := seat, level := level }, level := some level } ∧
            t.lampLine k.portal =
              (if (s.channel c).level ≠ some level ∧ (s.lampLine k.portal).carries k.addr c then
                (s.lampLine k.portal).enter k.addr level c
               else s.lampLine k.portal) ∧
            (∀ n, n ≠ k.portal → t.lampLine n = s.lampLine n) ∧
            { t with channels := s.channels, lines := s.lines } = s)))

/-- The level at which a ramp interval leaves a DIMMED channel at level `a` with target `b` (R100). -/
def Sys2Proof.Machine.SteppedLevel (s : State) (k : Circuit) (a b : Nat) : Nat :=
  let up := (s.record k.portal).upRate / 10
  let down := (s.record k.portal).downRate / 10
  let low := k.cfg.minLevel
  if a < b then (if 0 < min (a + up) b ∧ min (a + up) b < low then low else min (a + up) b)
  else if b < a then (if 0 < max (a - down) b ∧ max (a - down) b < low then 0 else max (a - down) b)
  else a

/-- The circuit and the new level of a channel whose commanded level a ramp interval changes: a DIMMED
channel in AUTO of an untripped portal (R100). -/
def Sys2Proof.Machine.RampMove (s : State) (c : Fin 32) : Option (Circuit × Nat) :=
  match s.assignment c, (s.channel c).level, (s.channel c).target with
  | some k, some a, some b =>
    if k.cfg.switched = false ∧ (s.channel c).hand = none ∧ s.tripped k.portal = false ∧
        SteppedLevel s k a b ≠ a then some (k, SteppedLevel s k a b)
    else none
  | _, _, _ => none

/-- RAMP_INTERVAL (R100): each DIMMED channel in AUTO of an untripped portal takes one step toward
its target, and no other channel moves. Each changed level enters its line's update set at the channel's
address (R101, R130), if the channel is on the line there. A zone one of whose counted channels has landed
on its target makes the completion test (R90): if every counted channel is at its target, RAMPING becomes
STEADY, and BOOST_OFF_PREP becomes OVERLAP_OFF with its overlap timer started; no other zone changes. The
model's choices: that the interval carries the time base to its moment (log 3), and that the entries of one
interval join in ascending order of channel number (log 51). -/
def Obligations.RampIntervalStepsEachDimmedChannel : Prop :=
  ∀ s : State, ∃ t u, exec .rampInterval s = .next t ∧ t = beginTransactions u ∧
    (∀ c k a b, s.assignment c = some k → k.cfg.switched = false → (s.channel c).hand = none →
      s.tripped k.portal = false → (s.channel c).level = some a → (s.channel c).target = some b →
      t.channel c = { s.channel c with level := some (SteppedLevel s k a b) }) ∧
    (∀ c, (s.assignment c = none ∨ (s.channel c).hand ≠ none ∨
        ∃ k, s.assignment c = some k ∧ (k.cfg.switched = true ∨ s.tripped k.portal = true)) →
      t.channel c = s.channel c) ∧
    -- the update sets, before a line that is idle begins a transaction (R101, R126, R130)
    (∀ n, u.lampLine n = (List.finRange 32).foldl
      (fun l c =>
        match RampMove s c with
        | some (k, level) =>
          if k.portal = n ∧ l.carries k.addr c = true then l.enter k.addr level c else l
        | none => l)
      (s.lampLine n)) ∧
    -- the completion tests (R90)
    (∀ p z, (∀ k ∈ s.dimmed p z, s.only k) →
      let landed : Prop := ∃ k ∈ s.dimmed p z, ∃ b, RampMove s k.cfg.channel = some (k, b) ∧
        (s.channel k.cfg.channel).target = some b
      let there : Prop := ∀ k ∈ s.dimmed p z, (s.channel k.cfg.channel).hand = none →
        (t.channel k.cfg.channel).level = (t.channel k.cfg.channel).target
      (landed → there → t.zone p z = (s.zone p z).map fun zn =>
        match zn.state with
        | .ramping => { zn with state := .steady }
        | .boostOffPrep =>
          { zn with state := .overlapOff, overlap := some (t.now + (s.record p).overlap * 100) }
        | _ => zn) ∧
      (¬ (landed ∧ there) → t.zone p z = s.zone p z)) ∧
    (∀ p z, (t.zone p z).map Zone.working = (s.zone p z).map Zone.working) ∧
    t.now = max s.now s.nextRamp ∧ t.nextRamp = s.nextRamp + 100 ∧ t.resetCause = s.resetCause ∧
    t.freeIndex = s.freeIndex ∧ t.firePins = s.firePins ∧ t.pending = s.pending ∧
    SameSets s t ∧ SameDaylight s t ∧ SameTrips s t ∧ t.ports = s.ports ∧ t.queues = s.queues

/-! ### Trips (chapter 6) -/

/-- FIRE_INPUT_CHANGE (R111, R112): the level through the polarity, and its debounce.
DEBOUNCE_EXPIRY (R112, R113, R116): the debounced state is the input level, which every seat is
told; ACTIVE latches FIRE on an armed, configured portal whose latch is clear, and trips it, which every
seat is told by TRIPPED with the source and the sources then present. -/
def Obligations.FireInputIsDebouncedAndLatched : Prop :=
  (∀ (p : Fin 4) (high : Bool) (s : State), rd s.firePins p ≠ high →
    let level := if (s.record p).activeLow then !high else high
    exec (.fireInputChange p high) s = .next
      { s with
        firePins := wr s.firePins p high
        trips := wr s.trips p
          { s.tripUnit p with
            fireLevel := level
            debounce := if level = (s.tripUnit p).debounced then none else some (s.now + 200) } }) ∧
  (∀ (p : Fin 4) (e : Nat) (s : State), TripsWf s → (s.tripUnit p).debounce = some e → e ≤ s.now →
    let u := s.tripUnit p
    let settled : State :=
      postAll (.fireInput p u.fireLevel)
        (s.setTrip p { u with debounced := u.fireLevel, debounce := none })
    let latches : Prop :=
      u.fireLevel = true ∧ (s.record p).fireArmed = true ∧ s.baseOf p ≠ .unconfigured ∧
        u.fireLatch = none
    (¬ latches → exec (.debounceExpiry p) s = done settled) ∧
    (latches → ∃ t, exec (.debounceExpiry p) s = .next t ∧
      (t.tripUnit p).fireLatch = some s.tenths ∧ (t.tripUnit p).overlay = true ∧
      (t.tripUnit p).sources = { u.sources with fire := true } ∧
      (t.tripUnit p).debounced = true ∧ (t.tripUnit p).debounce = none ∧
      (t.tripUnit p).orderLatch = u.orderLatch ∧
      (∀ seat, t.queue seat = ((s.queue seat).place (.fireInput p true) s.uptime).place
        (.tripped p .fire { u.sources with fire := true }) s.uptime) ∧
      (∀ q, q ≠ p → SamePortal q s t) ∧ t.arbiter p = s.arbiter p ∧ t.eval p = s.eval p ∧
      SameClock s t ∧ SameSets s t ∧ SameDaylight s t ∧ t.ports = s.ports))

/-- TRIP (R115, R116): the checks, the ORDER latch of each named portal, the overlay, and the mask of
the portals that entered TRIPPED; every seat is told TRIPPED of each portal whose ORDER latch was clear
(several such records stand in ascending order of portal number: the model's choice, log 43). The entry
to TRIPPED (R97, R99, R116): the overlay and its time, each channel commanded at its fail level, and
each present zone HELD with its timers stopped. -/
def Obligations.TripLatchesOrderAndEntersTripped : Prop :=
  (∀ (seat : Seat) (h : Header) (b : List Byte) (s : State),
    (s.port seat).phase = .header → b.length = 2 →
    let run := exec (.trip seat h b) s
    (h.records ≠ 1 ∨ h.portals = [] → run = done (denied seat .badValue 0 s)) ∧
    (h.records = 1 → (∃ p ∈ h.portals, s.baseOf p = .unconfigured) →
      run = done (denied seat .badValue 1 s)) ∧
    (h.records = 1 → h.portals ≠ [] → (∀ p ∈ h.portals, s.baseOf p ≠ .unconfigured) → TripsWf s →
      let mask := maskOf (h.portals.filter fun p => !s.tripped p)
      ∃ t, run = done (granted seat mask (mask != 0) t) ∧
        (∀ p ∈ h.portals,
          (t.tripUnit p).orderLatch =
            (match (s.tripUnit p).orderLatch with
              | some o => some o
              | none => some { seat := seat, reason := byteAt b 0, time := s.tenths }) ∧
          (t.tripUnit p).overlay = true ∧
          (t.tripUnit p).sources = { (s.tripUnit p).sources with order := true } ∧
          (t.tripUnit p).fireLatch = (s.tripUnit p).fireLatch) ∧
        (∀ x, t.queue x =
          ((h.portals.filter fun p => (s.tripUnit p).orderLatch.isNone).foldl
            (fun q p => q.place
              (.tripped p .order { (s.tripUnit p).sources with order := true }) s.uptime)
            (s.queue x))) ∧
        (∀ p ∈ h.portals, s.tripped p = false → ∀ k ∈ s.circuits p, s.only k →
          (t.channel k.cfg.channel).level = some (k.cfg.raised k.cfg.failLevel)) ∧
        (∀ p, p ∉ h.portals → SamePortal p s t) ∧
        SameClock s t ∧ SameSets s t ∧ SameDaylight s t ∧ t.ports = s.ports)) ∧
  (∀ (p : Fin 4) (s : State),
    (enterTrip p s).tripUnit p =
      { s.tripUnit p with overlay := true, overlayAt := some s.tenths } ∧
    (∀ k ∈ s.circuits p, s.only k →
      ((enterTrip p s).channel k.cfg.channel).level = some (k.cfg.raised k.cfg.failLevel) ∧
      ((enterTrip p s).channel k.cfg.channel).hand = (s.channel k.cfg.channel).hand ∧
      ((enterTrip p s).channel k.cfg.channel).target = (s.channel k.cfg.channel).target) ∧
    (∀ z zn, s.zone p z = some zn → (enterTrip p s).zone p z = some
      { state := .held, working := zn.latest.getD zn.working, latest := none,
        switched := zn.switched, confirmed := false, overlap := none, confirm := none,
        degraded := false }) ∧
    (∀ z, s.zone p z = none → (enterTrip p s).zone p z = none) ∧
    (∀ q, q ≠ p → SamePortal q s (enterTrip p s)))

/-- TRIP_RESET (R119, R120): the checks, and the named latches cleared; a portal whose sources are
empty leaves TRIPPED. -/
def Obligations.TripResetClearsTheNamedLatches : Prop :=
  ∀ (seat : Seat) (h : Header) (b : List Byte) (s : State),
    (s.port seat).phase = .header → b.length = 2 →
    let run := exec (.tripReset seat h b) s
    let fire := bitAt b 0 0
    let order := bitAt b 0 1
    let named : Prop := h.records = 1 ∧ h.portals ≠ [] ∧ (fire = true ∨ order = true)
    let active (p : Fin 4) : Bool :=
      fire && ((s.tripUnit p).fireLatch.isSome && (s.tripUnit p).debounced)
    let latched (p : Fin 4) : Prop :=
      (fire = true ∧ (s.tripUnit p).fireLatch ≠ none) ∨
        (order = true ∧ (s.tripUnit p).orderLatch ≠ none)
    (h.records ≠ 1 ∨ h.portals = [] → run = done (denied seat .badValue 0 s)) ∧
    (h.records = 1 → h.portals ≠ [] → fire = false → order = false →
      run = done (denied seat .badValue 1 s)) ∧
    (∀ p, named → h.portals.find? active = some p → run = done (denied seat .active p.val s)) ∧
    (named → (∀ p ∈ h.portals, active p = false) → (∀ p ∈ h.portals, ¬ latched p) →
      run = done (denied seat .notTripped 0 s)) ∧
    (named → (∀ p ∈ h.portals, active p = false) → (∃ p ∈ h.portals, latched p) → TripsWf s →
      let left (p : Fin 4) : TripSet :=
        { (s.tripUnit p).sources with
          fire := (s.tripUnit p).sources.fire && !fire
          order := (s.tripUnit p).sources.order && !order }
      let mask := maskOf (h.portals.filter fun p => s.tripped p && left p == TripSet.empty)
      ∃ t, run = done (granted seat mask (mask != 0) t) ∧
        (∀ p ∈ h.portals, t.tripUnit p =
          { s.tripUnit p with
            fireLatch := if fire then none else (s.tripUnit p).fireLatch
            orderLatch := if order then none else (s.tripUnit p).orderLatch
            sources := left p
            overlay := left p != TripSet.empty }) ∧
        (∀ p, p ∉ h.portals → SamePortal p s t) ∧
        SameClock s t ∧ SameSets s t ∧ SameDaylight s t ∧ t.ports = s.ports)

/-- The end of a trip (R97, R99, R120): a tripped portal without a source clears its overlay, posts
TRIP_CLEARED, and each HELD zone plans from its channels' present levels, its switched target taken
from the fail level; a HAND channel jumps to its hand level, a SWITCHED channel in AUTO takes its
target, and a DIMMED one ramps from where it is. A TRIP_RESET that clears the last source of its
portal ends the trip so (R119). -/
def Obligations.TripExitPlansFromTheFailLevels : Prop :=
  (∀ (p : Fin 4) (s : State), s.tripped p = true → s.sourcesOf p = TripSet.empty →
    recompute p s =
      exitTrip p (s.setTrip p { s.tripUnit p with sources := TripSet.empty })) ∧
  (∀ (seat : Seat) (h : Header) (b : List Byte) (p : Fin 4) (s : State),
    (s.port seat).phase = .header → b.length = 2 → h.records = 1 → h.portals = [p] →
    let fire := bitAt b 0 0
    let order := bitAt b 0 1
    let u := s.tripUnit p
    (fire = true ∧ u.fireLatch ≠ none ∨ order = true ∧ u.orderLatch ≠ none) →
    ¬ (fire = true ∧ u.fireLatch ≠ none ∧ u.debounced = true) → s.tripped p = true →
    (u.fireLatch ≠ none → fire = true) → (u.orderLatch ≠ none → order = true) →
    s.linePresent p = false →
    exec (.tripReset seat h b) s = done (granted seat (2 ^ p.val) true
      (exitTrip p (s.setTrip p
        { u with fireLatch := none, orderLatch := none, sources := TripSet.empty })))) ∧
  (∀ (p : Fin 4) (s : State), (∀ k ∈ s.circuits p, s.only k) →
    let t := exitTrip p s
    t.tripUnit p = { s.tripUnit p with overlay := false } ∧
    (∀ seat, t.queue seat = (s.queue seat).place (.tripCleared p) s.uptime) ∧
    (∀ z, ∀ zn ∈ s.zone p z,
      zn = { state := .held, working := zn.working, latest := none, switched := zn.switched,
             confirmed := false, overlap := none, confirm := none, degraded := false } →
      PlannedFrom p z zn.working
        (((s.set p).switchedOf p z).any fun k => k.cfg.failLevel != 0) s t) ∧
    (∀ k ∈ s.circuits p,
      let c := s.channel k.cfg.channel
      let d := t.channel k.cfg.channel
      d.hand = c.hand ∧
      (∀ x ∈ c.hand, d.level = some (k.cfg.raised x.level)) ∧
      (c.hand = none → k.cfg.switched = true → d.level = some (d.target.getD 0)) ∧
      (c.hand = none → k.cfg.switched = false → d.level = c.level)) ∧
    (∀ c, (∀ k ∈ s.circuits p, k.cfg.channel ≠ c) → t.channel c = s.channel c) ∧
    (∀ q, q ≠ p → SamePortal q s t ∧ t.lampLine q = s.lampLine q) ∧
    SameClock s t ∧ SameSets s t ∧ SameDaylight s t ∧ t.ports = s.ports)

/-- The overlay stands exactly while there is a trip source, after every step (R110). -/
def Obligations.EveryStepKeepsTheOverlayWithTheSources : Prop :=
  ∀ s t : State, TripsWf s → step s = .next t → TripsWf t

/-! ### Lamp lines (chapter 7) -/

/-- The choice of a transaction at the end of an event (R126, R129): the oldest entry as a LEVEL,
else a POLL of the next channel on the line after the cursor, else none; and nothing while one is in
progress. A level enters an update set (R130): in place at its address, or as a new entry at the
tail. FRAME_SENT (R128): the reply window opens for 10 ms. -/
def Obligations.LineTransactionsBeginAndTheirFramesAreSent : Prop :=
  (∀ (n : Fin 4) (s : State),
    let l := s.lampLine n
    let after := (beginTransactions s).lampLine n
    (∀ x, l.tx = some x → after = l) ∧
    (∀ e rest, l.tx = none → l.updates = e :: rest → after =
      { l with
        updates := rest
        tx := some { level := some e.level, addr := e.addr, channel := e.owner,
                     departing := e.departing, frame := levelFrame e.addr e.level,
                     phase := .sending (s.now + 10) } }) ∧
    (∀ (a : Fin 16) (i : Nat) (st : Station), l.tx = none → l.updates = [] → i < 16 →
      a.val = (l.cursor.val + 1 + i) % 16 → rd l.stations a = some st →
      (∀ j, j < i → ∀ b : Fin 16, b.val = (l.cursor.val + 1 + j) % 16 → rd l.stations b = none) →
      after =
        { l with
          cursor := a
          tx := some { level := none, addr := a, channel := some st.channel, departing := none,
                       frame := pollFrame a, phase := .sending (s.now + 10) } }) ∧
    (l.tx = none → l.updates = [] → (∀ a, rd l.stations a = none) → after = l) ∧
    { beginTransactions s with lines := s.lines } = s) ∧
  (∀ (l : LampLine) (a : Fin 16) (level : Nat) (c : Fin 32),
    (∀ before e after, l.updates = before ++ e :: after → e.addr = a →
      (∀ x ∈ before ++ after, x.addr ≠ a) →
      l.enter a level c =
        { l with updates := before ++ { e with level := level, owner := some c } :: after }) ∧
    ((∀ e ∈ l.updates, e.addr ≠ a) →
      l.enter a level c =
        { l with
          updates := l.updates ++ [{ addr := a, level := level, owner := some c, departing := none }] })) ∧
  (∀ (n : Fin 4) (x : Transaction) (e : Nat) (s : State),
    (s.lampLine n).tx = some x → x.phase = .sending e →
    exec (.frameSent n) s = .next (s.setLine n
      { s.lampLine n with tx := some { x with phase := .window (s.now + 10) false } }))

/-- A STATUS_REPLY in its window (R128, R131, R133, R135, R136) to a channel on the line: the driver
status, the LAMP and SUPPLY changes since the last reply, the return of a LOST channel, and the
contactor report. Outside the window, after its expiry, damaged, or with another address, a frame is
discarded; that a byte has been received in the window is noted (R180).
That the record of LAMP stands before that of SUPPLY is the model's choice (log 44), and so is the
place of the records of other blocks among them (log 13). -/
def Obligations.ReplyStoresTheDriverStatus : Prop :=
  (∀ (n : Fin 4) (x : Transaction) (e : Nat) (heard : Bool) (burst : Burst)
    (f : StatusFrame) (k : Circuit) (st : Station) (s : State),
    (s.lampLine n).tx = some x → x.phase = .window e heard → s.now ≤ e → x.departing = none →
    (burst.frame (!heard)).bind statusFrameOf = some f → f.addr = x.addr →
    s.txTarget n x = some (k, st) →
    let status : DriverStatus :=
      { level := if k.cfg.switched then (if f.level = 1000 then 1000 else 0) else f.level
        lamp := f.lamp, supply := f.supply, closed := f.closed, time := s.tenths }
    let station : Station := { channel := st.channel, misses := 0, status := some status }
    let stored : State := s.setLine n
      { s.lampLine n with tx := none, stations := wr (s.lampLine n).stations x.addr (some station) }
    let waits : Bool := (s.lampLine n).updates.any fun y => y.addr == x.addr
    let told (old new : Bool) (set : FaultReason) (clear : OkReason) (u : State) : State :=
      if old = new then u
      else if new then postAll (.channelFault n k.cfg.channel set) u
      else postAll (.channelOk n k.cfg.channel clear) u
    let flagged (u : State) : State :=
      told (st.status.any DriverStatus.supply) f.supply .supply .supply
        (told (st.status.any DriverStatus.lamp) f.lamp .lamp .lamp u)
    let run := exec (.statusReply n burst) s
    (∃ t, run = .next t ∧ rd (t.lampLine n).stations x.addr = some station ∧
      (∀ a, a ≠ x.addr → rd (t.lampLine n).stations a = rd (s.lampLine n).stations a) ∧
      (∀ q, q ≠ n → SamePortal q s t) ∧ SameClock s t ∧ SameSets s t ∧ SameDaylight s t ∧
      t.ports = s.ports) ∧
    (st.misses ≠ 3 → k.cfg.switched = false ∨ k.cfg.zone = none ∨ waits = true →
      run = done (flagged stored)) ∧
    (∀ z, st.misses ≠ 3 → k.cfg.switched = true → k.cfg.zone = some z → waits = false →
      run = done
        (if f.closed then confirmation n z (flagged stored) else boostLost n z (flagged stored))) ∧
    (st.misses = 3 → run = done (flagged
      (testLine n (enterLevel k (postAll (.channelOk n k.cfg.channel .reply) stored)))))) ∧
  (∀ (n : Fin 4) (burst : Burst) (s : State),
    let run := exec (.statusReply n burst) s
    ((s.lampLine n).tx = none → run = .next s) ∧
    (∀ x e, (s.lampLine n).tx = some x → x.phase = .sending e → run = .next s) ∧
    (∀ x e heard, (s.lampLine n).tx = some x → x.phase = .window e heard →
      (burst.bytes = [] → run = .next s) ∧
      (burst.bytes ≠ [] →
        (∀ f, (burst.frame (!heard)).bind statusFrameOf = some f → f.addr ≠ x.addr ∨ e < s.now) →
        run = .next (s.setLine n
          { s.lampLine n with tx := some { x with phase := .window e true } }))))

/-- REPLY_WINDOW_EXPIRY (R128, R132): a miss of a channel on the line is counted; a LEVEL that was
not the third miss is sent again unless a newer level waits; the third makes the channel LOST, which a
zone whose switched channel it is takes as a loss of boost (R96). The
line condition (R134): DOWN while a channel is on the line and every one on it is LOST; a change is
posted and reported to the Trip Unit, which recomputes its sources. That LINE_STATE stands
before what the Trip Unit posts is the model's choice (log 13). -/
def Obligations.MissesLoseTheChannelAndTheLineGoesDown : Prop :=
  (∀ (n : Fin 4) (x : Transaction) (e : Nat) (heard : Bool) (k : Circuit) (st : Station) (s : State),
    (s.lampLine n).tx = some x → x.phase = .window e heard → e ≤ s.now → x.departing = none →
    s.txTarget n x = some (k, st) →
    let free : LampLine := { s.lampLine n with tx := none }
    let counted : State := s.setLine n
      { free with
        stations := wr free.stations x.addr (some { st with misses := st.misses + 1 }) }
    let waits : Bool := free.updates.any fun y => y.addr == x.addr
    let run := exec (.replyWindowExpiry n) s
    (st.misses = 3 → run = done (s.setLine n free)) ∧
    (st.misses < 2 → x.level = none ∨ waits = true → run = done counted) ∧
    (∀ level, st.misses < 2 → x.level ≠ none → waits = false →
      (s.channel k.cfg.channel).level = some level →
      run = done (counted.setLine n ((counted.lampLine n).enter x.addr level k.cfg.channel))) ∧
    (st.misses = 2 → ∃ t, run = .next t ∧
      rd (t.lampLine n).stations x.addr = some { st with misses := 3 } ∧
      (∀ q, q ≠ n → SamePortal q s t) ∧ SameClock s t ∧ SameSets s t ∧ SameDaylight s t ∧
      t.ports = s.ports) ∧
    (st.misses = 2 → k.cfg.switched = false ∨ k.cfg.zone = none →
      run = done (testLine n (postAll (.channelFault n k.cfg.channel .lost) counted))) ∧
    (∀ z, st.misses = 2 → k.cfg.switched = true → k.cfg.zone = some z →
      run = done (testLine n
        (boostLost n z (postAll (.channelFault n k.cfg.channel .lost) counted))))) ∧
  (∀ (n : Fin 4) (s : State),
    let l := s.lampLine n
    let down : Prop :=
      (∃ a st, rd l.stations a = some st) ∧ ∀ a st, rd l.stations a = some st → st.misses = 3
    let changed (x : Bool) : State :=
      (postAll (.lineState n x) (s.setLine n { l with down := x })).setTrip n
        { s.tripUnit n with lineDown := x }
    (down → l.down = false → testLine n s = recompute n (changed true)) ∧
    (¬ down → l.down = true → testLine n s = recompute n (changed false)) ∧
    (down ∧ l.down = true ∨ ¬ down ∧ l.down = false → testLine n s = s))

/-- The completion of a farewell (R138): what the line held for the departing channel there is dropped.
A channel that waits for this farewell becomes unassigned if it left, and takes up its new address with
its present commanded level if it was replaced. The model's choices (logs 18 and 28): it does so
whatever other farewells of it are outstanding; one that has joined a portal since waits for none, and
one that has left or been replaced again since waits for the newest farewell, which at the same address
may be a `later` one, entered while this one was being sent, and remains. A transaction of no channel on
the line, or of an entry without an owner, ends with a reply or a miss that acts on no channel (R138,
R139); if the entry has an owner, the reply or the miss acts on the owner. That the farewell completes after
that is the model's choice (logs 13 and 51). -/
def Obligations.FarewellsCompleteWithTheirTransactions : Prop :=
  (∀ (n : Fin 4) (a : Fin 16) (c : Fin 32) (s : State),
    let l := s.lampLine n
    let named (d : Departed) : Bool := d.addr == a && d.channel == c
    let remains : List Departed :=
      (l.departed.filter fun d => !named d || d.later).map fun d =>
        if named d then { d with later := false } else d
    let dropped : State := s.setLine n { l with departed := remains }
    ((s.channel c).farewell ≠ some (n, a) ∨ (∃ d ∈ l.departed, named d = true ∧ d.later = true) →
      completeFarewell n a c s = dropped) ∧
    (∀ d, (s.channel c).farewell = some (n, a) →
      (∀ y ∈ l.departed, named y = true → y.later = false) →
      (l.departed.filter named).getLast? = some d →
      (d.replaced = false → s.assignment c = none →
        completeFarewell n a c s =
          dropped.setChannel c { hand := none, level := none, target := none, farewell := none }) ∧
      (∀ k, d.replaced = true → (s.set n).find n c = some k →
        let arrived : State := s.setChannel c { s.channel c with farewell := none }
        let taken : LampLine :=
          { l with
            departed := remains
            stations := wr l.stations k.addr (some
              { channel := c, misses := if l.down then 3 else 0, status := none }) }
        (∀ level ∈ (s.channel c).level,
          completeFarewell n a c s = arrived.setLine n (taken.enter k.addr level c)) ∧
        ((s.channel c).level = none → completeFarewell n a c s = arrived.setLine n taken)))) ∧
  (∀ (n : Fin 4) (x : Transaction) (e : Nat) (heard : Bool) (burst : Burst)
    (f : StatusFrame) (s : State),
    (s.lampLine n).tx = some x → x.phase = .window e heard →
    let free : State := s.setLine n { s.lampLine n with tx := none }
    let own : State := s.setLine n
      { s.lampLine n with tx := some { x with departing := none } }
    let ends (i : Instr) : Prop :=
      (x.channel = none → x.departing = none → exec i s = done free) ∧
      (∀ c, x.channel = none → x.departing = some c →
        exec i s = done (completeFarewell n x.addr c free)) ∧
      (∀ c, x.departing = some c →
        ∃ u, exec i own = done u ∧ exec i s = done (completeFarewell n x.addr c u))
    (s.now ≤ e → (burst.frame (!heard)).bind statusFrameOf = some f → f.addr = x.addr →
      ends (.statusReply n burst)) ∧
    (e ≤ s.now → ends (.replyWindowExpiry n)))

/-- No two entries of an update set share an address, after every step (section 7.2). Sample rings
hold at most 16 readings and miss counts lie from 0 to 3, after every step (R18, section 7.3). -/
def Obligations.EveryStepKeepsUpdateSetsRingsAndMissCounts : Prop :=
  (∀ s t : State, UpdatesWf s → step s = .next t → UpdatesWf t) ∧
  (∀ s t : State, RingsWf s → MissesWf s → step s = .next t → RingsWf t ∧ MissesWf t)

/-! ### The portals -/

/-- What an event at one portal touches (R1): no block of another portal, whose idle lamp line at
most begins a transaction that it had work for; and no channel that no record of its active set names,
but the channel whose farewell completes (R138). -/
def Obligations.PortalEventsStayAtTheirPortal : Prop :=
  ∀ (p : Fin 4) (z : Fin 5) (n : Nat) (burst : Burst) (high : Bool) (s t : State),
    ∀ i ∈ [Instr.holdTimerExpiry p, .mismatch p, .dwellExpiry p, .claimExpired p n,
        .overlapOnExpiry p z, .overlapOffExpiry p z, .confirmTimeout p z, .fireInputChange p high,
        .debounceExpiry p, .frameSent p, .statusReply p burst, .replyWindowExpiry p],
      exec i s = .next t →
        (∀ q, q ≠ p → SamePortal q s t ∧
          (t.lampLine q = s.lampLine q ∨ t.lampLine q = (beginTransactions s).lampLine q)) ∧
        (∀ c, (∀ k ∈ s.circuits p, k.cfg.channel ≠ c) → t.channel c = s.channel c ∨
          (t.channel c = { hand := none, level := none, target := none, farewell := none } ∧
            s.assignment c = none ∧ ∃ x, (s.lampLine p).tx = some x ∧ x.departing = some c)) ∧
        SameMeters s t ∧ t.ports = s.ports ∧ t.claimCounter = s.claimCounter ∧
        t.image = s.image ∧ t.storing = s.storing
end

