-- ==== Sys2Proof/Laws/State.lean ====
section
/-! SUPPORT. One lemma per field of State per named write, so that no proof unfolds a record update. -/

namespace Sys2Proof.Machine.State

variable (s : State)

/-! ### setMeter -/

@[simp] theorem setMeter_now (m : Fin 8) (x : Meter) : (s.setMeter m x).now = s.now := rfl
@[simp] theorem setMeter_nextRamp (m : Fin 8) (x : Meter) : (s.setMeter m x).nextRamp = s.nextRamp := rfl
@[simp] theorem setMeter_resetCause (m : Fin 8) (x : Meter) : (s.setMeter m x).resetCause = s.resetCause := rfl
@[simp] theorem setMeter_freeIndex (m : Fin 8) (x : Meter) : (s.setMeter m x).freeIndex = s.freeIndex := rfl
@[simp] theorem setMeter_firePins (m : Fin 8) (x : Meter) : (s.setMeter m x).firePins = s.firePins := rfl
@[simp] theorem setMeter_meters (m : Fin 8) (x : Meter) : (s.setMeter m x).meters = wr s.meters m x := rfl
@[simp] theorem setMeter_active (m : Fin 8) (x : Meter) : (s.setMeter m x).active = s.active := rfl
@[simp] theorem setMeter_edits (m : Fin 8) (x : Meter) : (s.setMeter m x).edits = s.edits := rfl
@[simp] theorem setMeter_base (m : Fin 8) (x : Meter) : (s.setMeter m x).base = s.base := rfl
@[simp] theorem setMeter_evals (m : Fin 8) (x : Meter) : (s.setMeter m x).evals = s.evals := rfl
@[simp] theorem setMeter_selectors (m : Fin 8) (x : Meter) : (s.setMeter m x).selectors = s.selectors := rfl
@[simp] theorem setMeter_arbiters (m : Fin 8) (x : Meter) : (s.setMeter m x).arbiters = s.arbiters := rfl
@[simp] theorem setMeter_claimCounter (m : Fin 8) (x : Meter) : (s.setMeter m x).claimCounter = s.claimCounter := rfl
@[simp] theorem setMeter_zones (m : Fin 8) (x : Meter) : (s.setMeter m x).zones = s.zones := rfl
@[simp] theorem setMeter_channels (m : Fin 8) (x : Meter) : (s.setMeter m x).channels = s.channels := rfl
@[simp] theorem setMeter_lines (m : Fin 8) (x : Meter) : (s.setMeter m x).lines = s.lines := rfl
@[simp] theorem setMeter_trips (m : Fin 8) (x : Meter) : (s.setMeter m x).trips = s.trips := rfl
@[simp] theorem setMeter_image (m : Fin 8) (x : Meter) : (s.setMeter m x).image = s.image := rfl
@[simp] theorem setMeter_storing (m : Fin 8) (x : Meter) : (s.setMeter m x).storing = s.storing := rfl
@[simp] theorem setMeter_ports (m : Fin 8) (x : Meter) : (s.setMeter m x).ports = s.ports := rfl
@[simp] theorem setMeter_queues (m : Fin 8) (x : Meter) : (s.setMeter m x).queues = s.queues := rfl
@[simp] theorem setMeter_pending (m : Fin 8) (x : Meter) : (s.setMeter m x).pending = s.pending := rfl

/-! ### setActive -/

@[simp] theorem setActive_now (p : Fin 4) (x : PortalSet) : (s.setActive p x).now = s.now := rfl
@[simp] theorem setActive_nextRamp (p : Fin 4) (x : PortalSet) : (s.setActive p x).nextRamp = s.nextRamp := rfl
@[simp] theorem setActive_resetCause (p : Fin 4) (x : PortalSet) : (s.setActive p x).resetCause = s.resetCause := rfl
@[simp] theorem setActive_freeIndex (p : Fin 4) (x : PortalSet) : (s.setActive p x).freeIndex = s.freeIndex := rfl
@[simp] theorem setActive_firePins (p : Fin 4) (x : PortalSet) : (s.setActive p x).firePins = s.firePins := rfl
@[simp] theorem setActive_meters (p : Fin 4) (x : PortalSet) : (s.setActive p x).meters = s.meters := rfl
@[simp] theorem setActive_active (p : Fin 4) (x : PortalSet) : (s.setActive p x).active = wr s.active p x := rfl
@[simp] theorem setActive_edits (p : Fin 4) (x : PortalSet) : (s.setActive p x).edits = s.edits := rfl
@[simp] theorem setActive_base (p : Fin 4) (x : PortalSet) : (s.setActive p x).base = s.base := rfl
@[simp] theorem setActive_evals (p : Fin 4) (x : PortalSet) : (s.setActive p x).evals = s.evals := rfl
@[simp] theorem setActive_selectors (p : Fin 4) (x : PortalSet) : (s.setActive p x).selectors = s.selectors := rfl
@[simp] theorem setActive_arbiters (p : Fin 4) (x : PortalSet) : (s.setActive p x).arbiters = s.arbiters := rfl
@[simp] theorem setActive_claimCounter (p : Fin 4) (x : PortalSet) : (s.setActive p x).claimCounter = s.claimCounter := rfl
@[simp] theorem setActive_zones (p : Fin 4) (x : PortalSet) : (s.setActive p x).zones = s.zones := rfl
@[simp] theorem setActive_channels (p : Fin 4) (x : PortalSet) : (s.setActive p x).channels = s.channels := rfl
@[simp] theorem setActive_lines (p : Fin 4) (x : PortalSet) : (s.setActive p x).lines = s.lines := rfl
@[simp] theorem setActive_trips (p : Fin 4) (x : PortalSet) : (s.setActive p x).trips = s.trips := rfl
@[simp] theorem setActive_image (p : Fin 4) (x : PortalSet) : (s.setActive p x).image = s.image := rfl
@[simp] theorem setActive_storing (p : Fin 4) (x : PortalSet) : (s.setActive p x).storing = s.storing := rfl
@[simp] theorem setActive_ports (p : Fin 4) (x : PortalSet) : (s.setActive p x).ports = s.ports := rfl
@[simp] theorem setActive_queues (p : Fin 4) (x : PortalSet) : (s.setActive p x).queues = s.queues := rfl
@[simp] theorem setActive_pending (p : Fin 4) (x : PortalSet) : (s.setActive p x).pending = s.pending := rfl

/-! ### setEdit -/

@[simp] theorem setEdit_now (p : Fin 4) (x : Edit) : (s.setEdit p x).now = s.now := rfl
@[simp] theorem setEdit_nextRamp (p : Fin 4) (x : Edit) : (s.setEdit p x).nextRamp = s.nextRamp := rfl
@[simp] theorem setEdit_resetCause (p : Fin 4) (x : Edit) : (s.setEdit p x).resetCause = s.resetCause := rfl
@[simp] theorem setEdit_freeIndex (p : Fin 4) (x : Edit) : (s.setEdit p x).freeIndex = s.freeIndex := rfl
@[simp] theorem setEdit_firePins (p : Fin 4) (x : Edit) : (s.setEdit p x).firePins = s.firePins := rfl
@[simp] theorem setEdit_meters (p : Fin 4) (x : Edit) : (s.setEdit p x).meters = s.meters := rfl
@[simp] theorem setEdit_active (p : Fin 4) (x : Edit) : (s.setEdit p x).active = s.active := rfl
@[simp] theorem setEdit_edits (p : Fin 4) (x : Edit) : (s.setEdit p x).edits = wr s.edits p x := rfl
@[simp] theorem setEdit_base (p : Fin 4) (x : Edit) : (s.setEdit p x).base = s.base := rfl
@[simp] theorem setEdit_evals (p : Fin 4) (x : Edit) : (s.setEdit p x).evals = s.evals := rfl
@[simp] theorem setEdit_selectors (p : Fin 4) (x : Edit) : (s.setEdit p x).selectors = s.selectors := rfl
@[simp] theorem setEdit_arbiters (p : Fin 4) (x : Edit) : (s.setEdit p x).arbiters = s.arbiters := rfl
@[simp] theorem setEdit_claimCounter (p : Fin 4) (x : Edit) : (s.setEdit p x).claimCounter = s.claimCounter := rfl
@[simp] theorem setEdit_zones (p : Fin 4) (x : Edit) : (s.setEdit p x).zones = s.zones := rfl
@[simp] theorem setEdit_channels (p : Fin 4) (x : Edit) : (s.setEdit p x).channels = s.channels := rfl
@[simp] theorem setEdit_lines (p : Fin 4) (x : Edit) : (s.setEdit p x).lines = s.lines := rfl
@[simp] theorem setEdit_trips (p : Fin 4) (x : Edit) : (s.setEdit p x).trips = s.trips := rfl
@[simp] theorem setEdit_image (p : Fin 4) (x : Edit) : (s.setEdit p x).image = s.image := rfl
@[simp] theorem setEdit_storing (p : Fin 4) (x : Edit) : (s.setEdit p x).storing = s.storing := rfl
@[simp] theorem setEdit_ports (p : Fin 4) (x : Edit) : (s.setEdit p x).ports = s.ports := rfl
@[simp] theorem setEdit_queues (p : Fin 4) (x : Edit) : (s.setEdit p x).queues = s.queues := rfl
@[simp] theorem setEdit_pending (p : Fin 4) (x : Edit) : (s.setEdit p x).pending = s.pending := rfl

/-! ### setBase -/

@[simp] theorem setBase_now (p : Fin 4) (x : BaseState) : (s.setBase p x).now = s.now := rfl
@[simp] theorem setBase_nextRamp (p : Fin 4) (x : BaseState) : (s.setBase p x).nextRamp = s.nextRamp := rfl
@[simp] theorem setBase_resetCause (p : Fin 4) (x : BaseState) : (s.setBase p x).resetCause = s.resetCause := rfl
@[simp] theorem setBase_freeIndex (p : Fin 4) (x : BaseState) : (s.setBase p x).freeIndex = s.freeIndex := rfl
@[simp] theorem setBase_firePins (p : Fin 4) (x : BaseState) : (s.setBase p x).firePins = s.firePins := rfl
@[simp] theorem setBase_meters (p : Fin 4) (x : BaseState) : (s.setBase p x).meters = s.meters := rfl
@[simp] theorem setBase_active (p : Fin 4) (x : BaseState) : (s.setBase p x).active = s.active := rfl
@[simp] theorem setBase_edits (p : Fin 4) (x : BaseState) : (s.setBase p x).edits = s.edits := rfl
@[simp] theorem setBase_base (p : Fin 4) (x : BaseState) : (s.setBase p x).base = wr s.base p x := rfl
@[simp] theorem setBase_evals (p : Fin 4) (x : BaseState) : (s.setBase p x).evals = s.evals := rfl
@[simp] theorem setBase_selectors (p : Fin 4) (x : BaseState) : (s.setBase p x).selectors = s.selectors := rfl
@[simp] theorem setBase_arbiters (p : Fin 4) (x : BaseState) : (s.setBase p x).arbiters = s.arbiters := rfl
@[simp] theorem setBase_claimCounter (p : Fin 4) (x : BaseState) : (s.setBase p x).claimCounter = s.claimCounter := rfl
@[simp] theorem setBase_zones (p : Fin 4) (x : BaseState) : (s.setBase p x).zones = s.zones := rfl
@[simp] theorem setBase_channels (p : Fin 4) (x : BaseState) : (s.setBase p x).channels = s.channels := rfl
@[simp] theorem setBase_lines (p : Fin 4) (x : BaseState) : (s.setBase p x).lines = s.lines := rfl
@[simp] theorem setBase_trips (p : Fin 4) (x : BaseState) : (s.setBase p x).trips = s.trips := rfl
@[simp] theorem setBase_image (p : Fin 4) (x : BaseState) : (s.setBase p x).image = s.image := rfl
@[simp] theorem setBase_storing (p : Fin 4) (x : BaseState) : (s.setBase p x).storing = s.storing := rfl
@[simp] theorem setBase_ports (p : Fin 4) (x : BaseState) : (s.setBase p x).ports = s.ports := rfl
@[simp] theorem setBase_queues (p : Fin 4) (x : BaseState) : (s.setBase p x).queues = s.queues := rfl
@[simp] theorem setBase_pending (p : Fin 4) (x : BaseState) : (s.setBase p x).pending = s.pending := rfl

/-! ### setEval -/

@[simp] theorem setEval_now (p : Fin 4) (x : Evaluator) : (s.setEval p x).now = s.now := rfl
@[simp] theorem setEval_nextRamp (p : Fin 4) (x : Evaluator) : (s.setEval p x).nextRamp = s.nextRamp := rfl
@[simp] theorem setEval_resetCause (p : Fin 4) (x : Evaluator) : (s.setEval p x).resetCause = s.resetCause := rfl
@[simp] theorem setEval_freeIndex (p : Fin 4) (x : Evaluator) : (s.setEval p x).freeIndex = s.freeIndex := rfl
@[simp] theorem setEval_firePins (p : Fin 4) (x : Evaluator) : (s.setEval p x).firePins = s.firePins := rfl
@[simp] theorem setEval_meters (p : Fin 4) (x : Evaluator) : (s.setEval p x).meters = s.meters := rfl
@[simp] theorem setEval_active (p : Fin 4) (x : Evaluator) : (s.setEval p x).active = s.active := rfl
@[simp] theorem setEval_edits (p : Fin 4) (x : Evaluator) : (s.setEval p x).edits = s.edits := rfl
@[simp] theorem setEval_base (p : Fin 4) (x : Evaluator) : (s.setEval p x).base = s.base := rfl
@[simp] theorem setEval_evals (p : Fin 4) (x : Evaluator) : (s.setEval p x).evals = wr s.evals p x := rfl
@[simp] theorem setEval_selectors (p : Fin 4) (x : Evaluator) : (s.setEval p x).selectors = s.selectors := rfl
@[simp] theorem setEval_arbiters (p : Fin 4) (x : Evaluator) : (s.setEval p x).arbiters = s.arbiters := rfl
@[simp] theorem setEval_claimCounter (p : Fin 4) (x : Evaluator) : (s.setEval p x).claimCounter = s.claimCounter := rfl
@[simp] theorem setEval_zones (p : Fin 4) (x : Evaluator) : (s.setEval p x).zones = s.zones := rfl
@[simp] theorem setEval_channels (p : Fin 4) (x : Evaluator) : (s.setEval p x).channels = s.channels := rfl
@[simp] theorem setEval_lines (p : Fin 4) (x : Evaluator) : (s.setEval p x).lines = s.lines := rfl
@[simp] theorem setEval_trips (p : Fin 4) (x : Evaluator) : (s.setEval p x).trips = s.trips := rfl
@[simp] theorem setEval_image (p : Fin 4) (x : Evaluator) : (s.setEval p x).image = s.image := rfl
@[simp] theorem setEval_storing (p : Fin 4) (x : Evaluator) : (s.setEval p x).storing = s.storing := rfl
@[simp] theorem setEval_ports (p : Fin 4) (x : Evaluator) : (s.setEval p x).ports = s.ports := rfl
@[simp] theorem setEval_queues (p : Fin 4) (x : Evaluator) : (s.setEval p x).queues = s.queues := rfl
@[simp] theorem setEval_pending (p : Fin 4) (x : Evaluator) : (s.setEval p x).pending = s.pending := rfl

/-! ### setSelector -/

@[simp] theorem setSelector_now (p : Fin 4) (x : Selector) : (s.setSelector p x).now = s.now := rfl
@[simp] theorem setSelector_nextRamp (p : Fin 4) (x : Selector) : (s.setSelector p x).nextRamp = s.nextRamp := rfl
@[simp] theorem setSelector_resetCause (p : Fin 4) (x : Selector) : (s.setSelector p x).resetCause = s.resetCause := rfl
@[simp] theorem setSelector_freeIndex (p : Fin 4) (x : Selector) : (s.setSelector p x).freeIndex = s.freeIndex := rfl
@[simp] theorem setSelector_firePins (p : Fin 4) (x : Selector) : (s.setSelector p x).firePins = s.firePins := rfl
@[simp] theorem setSelector_meters (p : Fin 4) (x : Selector) : (s.setSelector p x).meters = s.meters := rfl
@[simp] theorem setSelector_active (p : Fin 4) (x : Selector) : (s.setSelector p x).active = s.active := rfl
@[simp] theorem setSelector_edits (p : Fin 4) (x : Selector) : (s.setSelector p x).edits = s.edits := rfl
@[simp] theorem setSelector_base (p : Fin 4) (x : Selector) : (s.setSelector p x).base = s.base := rfl
@[simp] theorem setSelector_evals (p : Fin 4) (x : Selector) : (s.setSelector p x).evals = s.evals := rfl
@[simp] theorem setSelector_selectors (p : Fin 4) (x : Selector) : (s.setSelector p x).selectors = wr s.selectors p x := rfl
@[simp] theorem setSelector_arbiters (p : Fin 4) (x : Selector) : (s.setSelector p x).arbiters = s.arbiters := rfl
@[simp] theorem setSelector_claimCounter (p : Fin 4) (x : Selector) : (s.setSelector p x).claimCounter = s.claimCounter := rfl
@[simp] theorem setSelector_zones (p : Fin 4) (x : Selector) : (s.setSelector p x).zones = s.zones := rfl
@[simp] theorem setSelector_channels (p : Fin 4) (x : Selector) : (s.setSelector p x).channels = s.channels := rfl
@[simp] theorem setSelector_lines (p : Fin 4) (x : Selector) : (s.setSelector p x).lines = s.lines := rfl
@[simp] theorem setSelector_trips (p : Fin 4) (x : Selector) : (s.setSelector p x).trips = s.trips := rfl
@[simp] theorem setSelector_image (p : Fin 4) (x : Selector) : (s.setSelector p x).image = s.image := rfl
@[simp] theorem setSelector_storing (p : Fin 4) (x : Selector) : (s.setSelector p x).storing = s.storing := rfl
@[simp] theorem setSelector_ports (p : Fin 4) (x : Selector) : (s.setSelector p x).ports = s.ports := rfl
@[simp] theorem setSelector_queues (p : Fin 4) (x : Selector) : (s.setSelector p x).queues = s.queues := rfl
@[simp] theorem setSelector_pending (p : Fin 4) (x : Selector) : (s.setSelector p x).pending = s.pending := rfl

/-! ### setArbiter -/

@[simp] theorem setArbiter_now (p : Fin 4) (x : Arbiter) : (s.setArbiter p x).now = s.now := rfl
@[simp] theorem setArbiter_nextRamp (p : Fin 4) (x : Arbiter) : (s.setArbiter p x).nextRamp = s.nextRamp := rfl
@[simp] theorem setArbiter_resetCause (p : Fin 4) (x : Arbiter) : (s.setArbiter p x).resetCause = s.resetCause := rfl
@[simp] theorem setArbiter_freeIndex (p : Fin 4) (x : Arbiter) : (s.setArbiter p x).freeIndex = s.freeIndex := rfl
@[simp] theorem setArbiter_firePins (p : Fin 4) (x : Arbiter) : (s.setArbiter p x).firePins = s.firePins := rfl
@[simp] theorem setArbiter_meters (p : Fin 4) (x : Arbiter) : (s.setArbiter p x).meters = s.meters := rfl
@[simp] theorem setArbiter_active (p : Fin 4) (x : Arbiter) : (s.setArbiter p x).active = s.active := rfl
@[simp] theorem setArbiter_edits (p : Fin 4) (x : Arbiter) : (s.setArbiter p x).edits = s.edits := rfl
@[simp] theorem setArbiter_base (p : Fin 4) (x : Arbiter) : (s.setArbiter p x).base = s.base := rfl
@[simp] theorem setArbiter_evals (p : Fin 4) (x : Arbiter) : (s.setArbiter p x).evals = s.evals := rfl
@[simp] theorem setArbiter_selectors (p : Fin 4) (x : Arbiter) : (s.setArbiter p x).selectors = s.selectors := rfl
@[simp] theorem setArbiter_arbiters (p : Fin 4) (x : Arbiter) : (s.setArbiter p x).arbiters = wr s.arbiters p x := rfl
@[simp] theorem setArbiter_claimCounter (p : Fin 4) (x : Arbiter) : (s.setArbiter p x).claimCounter = s.claimCounter := rfl
@[simp] theorem setArbiter_zones (p : Fin 4) (x : Arbiter) : (s.setArbiter p x).zones = s.zones := rfl
@[simp] theorem setArbiter_channels (p : Fin 4) (x : Arbiter) : (s.setArbiter p x).channels = s.channels := rfl
@[simp] theorem setArbiter_lines (p : Fin 4) (x : Arbiter) : (s.setArbiter p x).lines = s.lines := rfl
@[simp] theorem setArbiter_trips (p : Fin 4) (x : Arbiter) : (s.setArbiter p x).trips = s.trips := rfl
@[simp] theorem setArbiter_image (p : Fin 4) (x : Arbiter) : (s.setArbiter p x).image = s.image := rfl
@[simp] theorem setArbiter_storing (p : Fin 4) (x : Arbiter) : (s.setArbiter p x).storing = s.storing := rfl
@[simp] theorem setArbiter_ports (p : Fin 4) (x : Arbiter) : (s.setArbiter p x).ports = s.ports := rfl
@[simp] theorem setArbiter_queues (p : Fin 4) (x : Arbiter) : (s.setArbiter p x).queues = s.queues := rfl
@[simp] theorem setArbiter_pending (p : Fin 4) (x : Arbiter) : (s.setArbiter p x).pending = s.pending := rfl

/-! ### setZone -/

@[simp] theorem setZone_now (p : Fin 4) (z : Fin 5) (x : Option Zone) : (s.setZone p z x).now = s.now := rfl
@[simp] theorem setZone_nextRamp (p : Fin 4) (z : Fin 5) (x : Option Zone) : (s.setZone p z x).nextRamp = s.nextRamp := rfl
@[simp] theorem setZone_resetCause (p : Fin 4) (z : Fin 5) (x : Option Zone) : (s.setZone p z x).resetCause = s.resetCause := rfl
@[simp] theorem setZone_freeIndex (p : Fin 4) (z : Fin 5) (x : Option Zone) : (s.setZone p z x).freeIndex = s.freeIndex := rfl
@[simp] theorem setZone_firePins (p : Fin 4) (z : Fin 5) (x : Option Zone) : (s.setZone p z x).firePins = s.firePins := rfl
@[simp] theorem setZone_meters (p : Fin 4) (z : Fin 5) (x : Option Zone) : (s.setZone p z x).meters = s.meters := rfl
@[simp] theorem setZone_active (p : Fin 4) (z : Fin 5) (x : Option Zone) : (s.setZone p z x).active = s.active := rfl
@[simp] theorem setZone_edits (p : Fin 4) (z : Fin 5) (x : Option Zone) : (s.setZone p z x).edits = s.edits := rfl
@[simp] theorem setZone_base (p : Fin 4) (z : Fin 5) (x : Option Zone) : (s.setZone p z x).base = s.base := rfl
@[simp] theorem setZone_evals (p : Fin 4) (z : Fin 5) (x : Option Zone) : (s.setZone p z x).evals = s.evals := rfl
@[simp] theorem setZone_selectors (p : Fin 4) (z : Fin 5) (x : Option Zone) : (s.setZone p z x).selectors = s.selectors := rfl
@[simp] theorem setZone_arbiters (p : Fin 4) (z : Fin 5) (x : Option Zone) : (s.setZone p z x).arbiters = s.arbiters := rfl
@[simp] theorem setZone_claimCounter (p : Fin 4) (z : Fin 5) (x : Option Zone) : (s.setZone p z x).claimCounter = s.claimCounter := rfl
@[simp] theorem setZone_zones (p : Fin 4) (z : Fin 5) (x : Option Zone) : (s.setZone p z x).zones = wr s.zones p (wr (rd s.zones p) z x) := rfl
@[simp] theorem setZone_channels (p : Fin 4) (z : Fin 5) (x : Option Zone) : (s.setZone p z x).channels = s.channels := rfl
@[simp] theorem setZone_lines (p : Fin 4) (z : Fin 5) (x : Option Zone) : (s.setZone p z x).lines = s.lines := rfl
@[simp] theorem setZone_trips (p : Fin 4) (z : Fin 5) (x : Option Zone) : (s.setZone p z x).trips = s.trips := rfl
@[simp] theorem setZone_image (p : Fin 4) (z : Fin 5) (x : Option Zone) : (s.setZone p z x).image = s.image := rfl
@[simp] theorem setZone_storing (p : Fin 4) (z : Fin 5) (x : Option Zone) : (s.setZone p z x).storing = s.storing := rfl
@[simp] theorem setZone_ports (p : Fin 4) (z : Fin 5) (x : Option Zone) : (s.setZone p z x).ports = s.ports := rfl
@[simp] theorem setZone_queues (p : Fin 4) (z : Fin 5) (x : Option Zone) : (s.setZone p z x).queues = s.queues := rfl
@[simp] theorem setZone_pending (p : Fin 4) (z : Fin 5) (x : Option Zone) : (s.setZone p z x).pending = s.pending := rfl

/-! ### setChannel -/

@[simp] theorem setChannel_now (c : Fin 32) (x : Channel) : (s.setChannel c x).now = s.now := rfl
@[simp] theorem setChannel_nextRamp (c : Fin 32) (x : Channel) : (s.setChannel c x).nextRamp = s.nextRamp := rfl
@[simp] theorem setChannel_resetCause (c : Fin 32) (x : Channel) : (s.setChannel c x).resetCause = s.resetCause := rfl
@[simp] theorem setChannel_freeIndex (c : Fin 32) (x : Channel) : (s.setChannel c x).freeIndex = s.freeIndex := rfl
@[simp] theorem setChannel_firePins (c : Fin 32) (x : Channel) : (s.setChannel c x).firePins = s.firePins := rfl
@[simp] theorem setChannel_meters (c : Fin 32) (x : Channel) : (s.setChannel c x).meters = s.meters := rfl
@[simp] theorem setChannel_active (c : Fin 32) (x : Channel) : (s.setChannel c x).active = s.active := rfl
@[simp] theorem setChannel_edits (c : Fin 32) (x : Channel) : (s.setChannel c x).edits = s.edits := rfl
@[simp] theorem setChannel_base (c : Fin 32) (x : Channel) : (s.setChannel c x).base = s.base := rfl
@[simp] theorem setChannel_evals (c : Fin 32) (x : Channel) : (s.setChannel c x).evals = s.evals := rfl
@[simp] theorem setChannel_selectors (c : Fin 32) (x : Channel) : (s.setChannel c x).selectors = s.selectors := rfl
@[simp] theorem setChannel_arbiters (c : Fin 32) (x : Channel) : (s.setChannel c x).arbiters = s.arbiters := rfl
@[simp] theorem setChannel_claimCounter (c : Fin 32) (x : Channel) : (s.setChannel c x).claimCounter = s.claimCounter := rfl
@[simp] theorem setChannel_zones (c : Fin 32) (x : Channel) : (s.setChannel c x).zones = s.zones := rfl
@[simp] theorem setChannel_channels (c : Fin 32) (x : Channel) : (s.setChannel c x).channels = wr s.channels c x := rfl
@[simp] theorem setChannel_lines (c : Fin 32) (x : Channel) : (s.setChannel c x).lines = s.lines := rfl
@[simp] theorem setChannel_trips (c : Fin 32) (x : Channel) : (s.setChannel c x).trips = s.trips := rfl
@[simp] theorem setChannel_image (c : Fin 32) (x : Channel) : (s.setChannel c x).image = s.image := rfl
@[simp] theorem setChannel_storing (c : Fin 32) (x : Channel) : (s.setChannel c x).storing = s.storing := rfl
@[simp] theorem setChannel_ports (c : Fin 32) (x : Channel) : (s.setChannel c x).ports = s.ports := rfl
@[simp] theorem setChannel_queues (c : Fin 32) (x : Channel) : (s.setChannel c x).queues = s.queues := rfl
@[simp] theorem setChannel_pending (c : Fin 32) (x : Channel) : (s.setChannel c x).pending = s.pending := rfl

/-! ### setLine -/

@[simp] theorem setLine_now (n : Fin 4) (x : LampLine) : (s.setLine n x).now = s.now := rfl
@[simp] theorem setLine_nextRamp (n : Fin 4) (x : LampLine) : (s.setLine n x).nextRamp = s.nextRamp := rfl
@[simp] theorem setLine_resetCause (n : Fin 4) (x : LampLine) : (s.setLine n x).resetCause = s.resetCause := rfl
@[simp] theorem setLine_freeIndex (n : Fin 4) (x : LampLine) : (s.setLine n x).freeIndex = s.freeIndex := rfl
@[simp] theorem setLine_firePins (n : Fin 4) (x : LampLine) : (s.setLine n x).firePins = s.firePins := rfl
@[simp] theorem setLine_meters (n : Fin 4) (x : LampLine) : (s.setLine n x).meters = s.meters := rfl
@[simp] theorem setLine_active (n : Fin 4) (x : LampLine) : (s.setLine n x).active = s.active := rfl
@[simp] theorem setLine_edits (n : Fin 4) (x : LampLine) : (s.setLine n x).edits = s.edits := rfl
@[simp] theorem setLine_base (n : Fin 4) (x : LampLine) : (s.setLine n x).base = s.base := rfl
@[simp] theorem setLine_evals (n : Fin 4) (x : LampLine) : (s.setLine n x).evals = s.evals := rfl
@[simp] theorem setLine_selectors (n : Fin 4) (x : LampLine) : (s.setLine n x).selectors = s.selectors := rfl
@[simp] theorem setLine_arbiters (n : Fin 4) (x : LampLine) : (s.setLine n x).arbiters = s.arbiters := rfl
@[simp] theorem setLine_claimCounter (n : Fin 4) (x : LampLine) : (s.setLine n x).claimCounter = s.claimCounter := rfl
@[simp] theorem setLine_zones (n : Fin 4) (x : LampLine) : (s.setLine n x).zones = s.zones := rfl
@[simp] theorem setLine_channels (n : Fin 4) (x : LampLine) : (s.setLine n x).channels = s.channels := rfl
@[simp] theorem setLine_lines (n : Fin 4) (x : LampLine) : (s.setLine n x).lines = wr s.lines n x := rfl
@[simp] theorem setLine_trips (n : Fin 4) (x : LampLine) : (s.setLine n x).trips = s.trips := rfl
@[simp] theorem setLine_image (n : Fin 4) (x : LampLine) : (s.setLine n x).image = s.image := rfl
@[simp] theorem setLine_storing (n : Fin 4) (x : LampLine) : (s.setLine n x).storing = s.storing := rfl
@[simp] theorem setLine_ports (n : Fin 4) (x : LampLine) : (s.setLine n x).ports = s.ports := rfl
@[simp] theorem setLine_queues (n : Fin 4) (x : LampLine) : (s.setLine n x).queues = s.queues := rfl
@[simp] theorem setLine_pending (n : Fin 4) (x : LampLine) : (s.setLine n x).pending = s.pending := rfl

/-! ### setTrip -/

@[simp] theorem setTrip_now (p : Fin 4) (x : TripUnit) : (s.setTrip p x).now = s.now := rfl
@[simp] theorem setTrip_nextRamp (p : Fin 4) (x : TripUnit) : (s.setTrip p x).nextRamp = s.nextRamp := rfl
@[simp] theorem setTrip_resetCause (p : Fin 4) (x : TripUnit) : (s.setTrip p x).resetCause = s.resetCause := rfl
@[simp] theorem setTrip_freeIndex (p : Fin 4) (x : TripUnit) : (s.setTrip p x).freeIndex = s.freeIndex := rfl
@[simp] theorem setTrip_firePins (p : Fin 4) (x : TripUnit) : (s.setTrip p x).firePins = s.firePins := rfl
@[simp] theorem setTrip_meters (p : Fin 4) (x : TripUnit) : (s.setTrip p x).meters = s.meters := rfl
@[simp] theorem setTrip_active (p : Fin 4) (x : TripUnit) : (s.setTrip p x).active = s.active := rfl
@[simp] theorem setTrip_edits (p : Fin 4) (x : TripUnit) : (s.setTrip p x).edits = s.edits := rfl
@[simp] theorem setTrip_base (p : Fin 4) (x : TripUnit) : (s.setTrip p x).base = s.base := rfl
@[simp] theorem setTrip_evals (p : Fin 4) (x : TripUnit) : (s.setTrip p x).evals = s.evals := rfl
@[simp] theorem setTrip_selectors (p : Fin 4) (x : TripUnit) : (s.setTrip p x).selectors = s.selectors := rfl
@[simp] theorem setTrip_arbiters (p : Fin 4) (x : TripUnit) : (s.setTrip p x).arbiters = s.arbiters := rfl
@[simp] theorem setTrip_claimCounter (p : Fin 4) (x : TripUnit) : (s.setTrip p x).claimCounter = s.claimCounter := rfl
@[simp] theorem setTrip_zones (p : Fin 4) (x : TripUnit) : (s.setTrip p x).zones = s.zones := rfl
@[simp] theorem setTrip_channels (p : Fin 4) (x : TripUnit) : (s.setTrip p x).channels = s.channels := rfl
@[simp] theorem setTrip_lines (p : Fin 4) (x : TripUnit) : (s.setTrip p x).lines = s.lines := rfl
@[simp] theorem setTrip_trips (p : Fin 4) (x : TripUnit) : (s.setTrip p x).trips = wr s.trips p x := rfl
@[simp] theorem setTrip_image (p : Fin 4) (x : TripUnit) : (s.setTrip p x).image = s.image := rfl
@[simp] theorem setTrip_storing (p : Fin 4) (x : TripUnit) : (s.setTrip p x).storing = s.storing := rfl
@[simp] theorem setTrip_ports (p : Fin 4) (x : TripUnit) : (s.setTrip p x).ports = s.ports := rfl
@[simp] theorem setTrip_queues (p : Fin 4) (x : TripUnit) : (s.setTrip p x).queues = s.queues := rfl
@[simp] theorem setTrip_pending (p : Fin 4) (x : TripUnit) : (s.setTrip p x).pending = s.pending := rfl

/-! ### setPort -/

@[simp] theorem setPort_now (seat : Seat) (x : SeatPort) : (s.setPort seat x).now = s.now := rfl
@[simp] theorem setPort_nextRamp (seat : Seat) (x : SeatPort) : (s.setPort seat x).nextRamp = s.nextRamp := rfl
@[simp] theorem setPort_resetCause (seat : Seat) (x : SeatPort) : (s.setPort seat x).resetCause = s.resetCause := rfl
@[simp] theorem setPort_freeIndex (seat : Seat) (x : SeatPort) : (s.setPort seat x).freeIndex = s.freeIndex := rfl
@[simp] theorem setPort_firePins (seat : Seat) (x : SeatPort) : (s.setPort seat x).firePins = s.firePins := rfl
@[simp] theorem setPort_meters (seat : Seat) (x : SeatPort) : (s.setPort seat x).meters = s.meters := rfl
@[simp] theorem setPort_active (seat : Seat) (x : SeatPort) : (s.setPort seat x).active = s.active := rfl
@[simp] theorem setPort_edits (seat : Seat) (x : SeatPort) : (s.setPort seat x).edits = s.edits := rfl
@[simp] theorem setPort_base (seat : Seat) (x : SeatPort) : (s.setPort seat x).base = s.base := rfl
@[simp] theorem setPort_evals (seat : Seat) (x : SeatPort) : (s.setPort seat x).evals = s.evals := rfl
@[simp] theorem setPort_selectors (seat : Seat) (x : SeatPort) : (s.setPort seat x).selectors = s.selectors := rfl
@[simp] theorem setPort_arbiters (seat : Seat) (x : SeatPort) : (s.setPort seat x).arbiters = s.arbiters := rfl
@[simp] theorem setPort_claimCounter (seat : Seat) (x : SeatPort) : (s.setPort seat x).claimCounter = s.claimCounter := rfl
@[simp] theorem setPort_zones (seat : Seat) (x : SeatPort) : (s.setPort seat x).zones = s.zones := rfl
@[simp] theorem setPort_channels (seat : Seat) (x : SeatPort) : (s.setPort seat x).channels = s.channels := rfl
@[simp] theorem setPort_lines (seat : Seat) (x : SeatPort) : (s.setPort seat x).lines = s.lines := rfl
@[simp] theorem setPort_trips (seat : Seat) (x : SeatPort) : (s.setPort seat x).trips = s.trips := rfl
@[simp] theorem setPort_image (seat : Seat) (x : SeatPort) : (s.setPort seat x).image = s.image := rfl
@[simp] theorem setPort_storing (seat : Seat) (x : SeatPort) : (s.setPort seat x).storing = s.storing := rfl
@[simp] theorem setPort_ports (seat : Seat) (x : SeatPort) : (s.setPort seat x).ports = wr s.ports (seatIx seat) x := rfl
@[simp] theorem setPort_queues (seat : Seat) (x : SeatPort) : (s.setPort seat x).queues = s.queues := rfl
@[simp] theorem setPort_pending (seat : Seat) (x : SeatPort) : (s.setPort seat x).pending = s.pending := rfl

/-! ### setQueue -/

@[simp] theorem setQueue_now (seat : Seat) (x : EventQueue) : (s.setQueue seat x).now = s.now := rfl
@[simp] theorem setQueue_nextRamp (seat : Seat) (x : EventQueue) : (s.setQueue seat x).nextRamp = s.nextRamp := rfl
@[simp] theorem setQueue_resetCause (seat : Seat) (x : EventQueue) : (s.setQueue seat x).resetCause = s.resetCause := rfl
@[simp] theorem setQueue_freeIndex (seat : Seat) (x : EventQueue) : (s.setQueue seat x).freeIndex = s.freeIndex := rfl
@[simp] theorem setQueue_firePins (seat : Seat) (x : EventQueue) : (s.setQueue seat x).firePins = s.firePins := rfl
@[simp] theorem setQueue_meters (seat : Seat) (x : EventQueue) : (s.setQueue seat x).meters = s.meters := rfl
@[simp] theorem setQueue_active (seat : Seat) (x : EventQueue) : (s.setQueue seat x).active = s.active := rfl
@[simp] theorem setQueue_edits (seat : Seat) (x : EventQueue) : (s.setQueue seat x).edits = s.edits := rfl
@[simp] theorem setQueue_base (seat : Seat) (x : EventQueue) : (s.setQueue seat x).base = s.base := rfl
@[simp] theorem setQueue_evals (seat : Seat) (x : EventQueue) : (s.setQueue seat x).evals = s.evals := rfl
@[simp] theorem setQueue_selectors (seat : Seat) (x : EventQueue) : (s.setQueue seat x).selectors = s.selectors := rfl
@[simp] theorem setQueue_arbiters (seat : Seat) (x : EventQueue) : (s.setQueue seat x).arbiters = s.arbiters := rfl
@[simp] theorem setQueue_claimCounter (seat : Seat) (x : EventQueue) : (s.setQueue seat x).claimCounter = s.claimCounter := rfl
@[simp] theorem setQueue_zones (seat : Seat) (x : EventQueue) : (s.setQueue seat x).zones = s.zones := rfl
@[simp] theorem setQueue_channels (seat : Seat) (x : EventQueue) : (s.setQueue seat x).channels = s.channels := rfl
@[simp] theorem setQueue_lines (seat : Seat) (x : EventQueue) : (s.setQueue seat x).lines = s.lines := rfl
@[simp] theorem setQueue_trips (seat : Seat) (x : EventQueue) : (s.setQueue seat x).trips = s.trips := rfl
@[simp] theorem setQueue_image (seat : Seat) (x : EventQueue) : (s.setQueue seat x).image = s.image := rfl
@[simp] theorem setQueue_storing (seat : Seat) (x : EventQueue) : (s.setQueue seat x).storing = s.storing := rfl
@[simp] theorem setQueue_ports (seat : Seat) (x : EventQueue) : (s.setQueue seat x).ports = s.ports := rfl
@[simp] theorem setQueue_queues (seat : Seat) (x : EventQueue) : (s.setQueue seat x).queues = wr s.queues (seatIx seat) x := rfl
@[simp] theorem setQueue_pending (seat : Seat) (x : EventQueue) : (s.setQueue seat x).pending = s.pending := rfl

end Sys2Proof.Machine.State
end

