-- ==== Sys2Proof/Laws/Keeps.lean ====
section
/-! SUPPORT. What the shared operations can do, said once: each keeps every property of the state that
the single writes of its blocks keep. A frame ("the meters are as before") and an invariant ("every
queue is well-formed") are both such properties, so a proof cites these lemmas and unfolds nothing. -/

namespace Sys2Proof.Machine

/-- A property that each element's operation keeps is kept by the repetition. -/
theorem forEach_keeps {α : Type} {P : State → Prop} {l : List α} {f : α → State → State}
    (h : ∀ a ∈ l, ∀ s, P s → P (f a s)) : ∀ s, P s → P (forEach l f s) := by
  induction l with
  | nil => intro s hs; exact hs
  | cons a rest ih =>
    intro s hs
    exact ih (fun b hb => h b (List.mem_cons_of_mem a hb)) _ (h a List.mem_cons_self s hs)

/-- Every circuit of a set is at the portal that it is looked up for. -/
theorem circuit_portal {x : PortalSet} {p : Fin 4} {k : Circuit} (h : k ∈ x.circuits p) :
    k.portal = p := by
  unfold PortalSet.circuits at h
  rw [List.mem_filterMap] at h
  obtain ⟨a, _, ha⟩ := h
  simp only [PortalSet.circuit, Option.map_eq_some_iff] at ha
  obtain ⟨r, _, hr⟩ := ha
  rw [← hr]

theorem mem_of_dimmed {s : State} {p : Fin 4} {z : Fin 5} {k : Circuit} (h : k ∈ s.dimmed p z) :
    k ∈ s.circuits p := (List.mem_filter.mp h).1

theorem mem_of_switchedOf {x : PortalSet} {p : Fin 4} {z : Fin 5} {k : Circuit}
    (h : x.switchedOf p z = some k) : k ∈ x.circuits p := List.mem_of_find?_eq_some h

theorem mem_of_find {x : PortalSet} {p : Fin 4} {c : Fin 32} {k : Circuit}
    (h : x.find p c = some k) : k ∈ x.circuits p := List.mem_of_find?_eq_some h

theorem channel_of_find {x : PortalSet} {p : Fin 4} {c : Fin 32} {k : Circuit}
    (h : x.find p c = some k) : k.cfg.channel = c := by
  simpa using List.find?_some h

/-- The assignment of a channel is a circuit of its portal's active set, and names the channel. -/
theorem assignment_spec {s : State} {c : Fin 32} {k : Circuit} (h : s.assignment c = some k) :
    k ∈ s.circuits k.portal ∧ k.cfg.channel = c := by
  unfold State.assignment at h
  obtain ⟨p, _, hp⟩ := List.exists_of_findSome?_eq_some h
  have hk := mem_of_find hp
  rw [circuit_portal hk]
  exact ⟨hk, channel_of_find hp⟩

/-- The channel on the line that a transaction belongs to is a circuit of the active set, with its
station. -/
theorem txTarget_spec {s : State} {n : Fin 4} {x : Transaction} {k : Circuit} {t : Station}
    (h : s.txTarget n x = some (k, t)) :
    k ∈ s.circuits n ∧ k.portal = n ∧ k.addr = x.addr ∧
      rd (s.lampLine n).stations x.addr = some t := by
  unfold State.txTarget at h
  split at h
  · next k' t' hk ht =>
    split at h
    · simp only [Option.some.injEq, Prod.mk.injEq] at h
      obtain ⟨rfl, rfl⟩ := h
      have hr := hk
      simp only [PortalSet.circuit, Option.map_eq_some_iff] at hr
      obtain ⟨r, _, hr⟩ := hr
      refine ⟨?_, by rw [← hr], by rw [← hr], ht⟩
      unfold State.circuits PortalSet.circuits
      rw [List.mem_filterMap]
      refine ⟨x.addr, ?_, hk⟩
      generalize x.addr = a
      revert a
      decide
    · cases h
  · cases h

/-- Kept by the writes of portal `p`'s Zone Sequencers, of the Channel Outputs of the circuits in `C`
and of the levels that enter for them; `C` is a part of portal `p` that holds its active circuits. -/
structure KeptByLight (p : Fin 4) (C : Circuit → Prop) (P : State → Prop) : Prop where
  place : ∀ k, C k → k.portal = p
  scope : ∀ s, P s → ∀ k ∈ s.circuits p, C k
  zone : ∀ z x s, P s → P (s.setZone p z x)
  channel : ∀ k x s, C k → P s → P (s.setChannel k.cfg.channel x)
  enter : ∀ k level s, C k → P s →
    P (s.setLine p ((s.lampLine p).enter k.addr level k.cfg.channel))

/-- Kept by posting any event of the catalogue but OVERFLOW, which is the Event Unit's own. -/
def KeptByPosts (P : State → Prop) : Prop :=
  ∀ seat e s, e.kind ≠ 2 → P s → P (postTo seat e s)

/-- Kept by the writes of portal `p`'s Stage Selector and by its Claim Arbiter's resolutions, too. -/
structure KeptByStage (p : Fin 4) (C : Circuit → Prop) (P : State → Prop) : Prop
    extends KeptByLight p C P where
  post : KeptByPosts P
  selector : ∀ x s, P s → P (s.setSelector p x)
  arbiter : ∀ x s, x.claims = (s.arbiter p).claims → P s → P (s.setArbiter p x)

/-- Kept by the writes of portal `p`'s Portal Evaluator and base state, too; the base state only moves
from STARTING to RUNNING. -/
structure KeptBySource (p : Fin 4) (C : Circuit → Prop) (P : State → Prop) : Prop
    extends KeptByStage p C P where
  eval : ∀ x s, P s → P (s.setEval p x)
  base : ∀ s, s.baseOf p = .starting → P s → P (s.setBase p .running)

/-- Kept by the writes of portal `p`'s Trip Unit, of Channel Output and of the Zone Sequencers. -/
structure KeptByTrips (p : Fin 4) (C : Circuit → Prop) (P : State → Prop) : Prop
    extends KeptByLight p C P where
  post : KeptByPosts P
  trip : ∀ x s, P s → P (s.setTrip p x)

/-- Kept by what a lamp line's replies and misses write, too: its update set is changed only by levels
that enter, and its stations by counts, statuses and channels that take up their address. -/
structure KeptByReplies (p : Fin 4) (C : Circuit → Prop) (P : State → Prop) : Prop
    extends KeptByLight p C P where
  post : KeptByPosts P
  test : ∀ s, P s → P (testLine p s)
  tx : ∀ s, P s → P (s.setLine p { s.lampLine p with tx := none })
  departed : ∀ d s, P s → P (s.setLine p { s.lampLine p with departed := d })
  station : ∀ a st s,
    (st.misses = 0 ∨ st.misses = 3 ∨ ∃ old, rd (s.lampLine p).stations a = some old ∧
      old.misses ≠ 3 ∧ st.misses = old.misses + 1) → P s →
    P (s.setLine p { s.lampLine p with stations := wr (s.lampLine p).stations a (some st) })

section Light

variable {P : State → Prop} {p : Fin 4} {C : Circuit → Prop} (h : KeptByLight p C P)
include h

theorem handOn_keeps (k : Circuit) (hk : C k) (level : Nat) (s : State) (hs : P s) :
    P (handOn k level s) := by
  unfold handOn
  dsimp only
  split
  · rw [h.place k hk]
    exact h.enter _ _ _ hk hs
  · exact hs

theorem command_keeps (k : Circuit) (hk : C k) (level : Nat) (s : State) (hs : P s) :
    P (command k level s) := by
  unfold command
  dsimp only
  split
  · exact hs
  · exact handOn_keeps h _ hk _ _ (h.channel _ _ _ hk hs)

theorem giveTarget_keeps (k : Circuit) (hk : C k) (target : Nat) (s : State) (hs : P s) :
    P (giveTarget k target s) := h.channel _ _ _ hk hs

theorem holdTarget_keeps (k : Circuit) (hk : C k) (s : State) (hs : P s) : P (holdTarget k s) :=
  h.channel _ _ _ hk hs

theorem driveSwitched_keeps (k : Circuit) (hk : C k) (s : State) (hs : P s) :
    P (driveSwitched k s) := by
  unfold driveSwitched
  dsimp only
  split
  · exact command_keeps h _ hk _ _ hs
  · exact hs

theorem steer_keeps (z : Fin 5) (level : Nat) (s : State) (hs : P s) : P (steer p z level s) :=
  forEach_keeps
    (fun k hk s' hs' => giveTarget_keeps h k (h.scope s hs k (mem_of_dimmed hk)) level s' hs') s hs

theorem holdDimmed_keeps (z : Fin 5) (s : State) (hs : P s) : P (holdDimmed p z s) :=
  forEach_keeps
    (fun k hk s' hs' => holdTarget_keeps h k (h.scope s hs k (mem_of_dimmed hk)) s' hs') s hs

theorem giveSwitched_keeps (z : Fin 5) (on : Bool) (s : State) (hs : P s) :
    P (giveSwitched p z on s) := by
  unfold giveSwitched
  split
  · exact hs
  · next k hk =>
    have hc := h.scope s hs k (mem_of_switchedOf hk)
    exact driveSwitched_keeps h _ hc _ (giveTarget_keeps h _ hc _ _ hs)

theorem testComplete_keeps (z : Fin 5) (s : State) (hs : P s) : P (testComplete p z s) := by
  unfold testComplete
  split
  · exact hs
  · split
    · split
      · exact h.zone _ _ _ hs
      · exact h.zone _ _ _ hs
      · exact hs
    · exact hs

theorem enterRamping_keeps (z : Fin 5) (zn : Zone) (level : Nat) (s : State) (hs : P s) :
    P (enterRamping p z zn level s) :=
  testComplete_keeps h _ _ (h.zone _ _ _ (steer_keeps h _ _ _ hs))

theorem enterBoostOffPrep_keeps (z : Fin 5) (zn : Zone) (level : Nat) (s : State) (hs : P s) :
    P (enterBoostOffPrep p z zn level s) :=
  testComplete_keeps h _ _ (h.zone _ _ _ (steer_keeps h _ _ _ hs))

theorem enterBoostOnWait_keeps (z : Fin 5) (zn : Zone) (s : State) (hs : P s) :
    P (enterBoostOnWait p z zn s) := h.zone _ _ _ (holdDimmed_keeps h _ _ hs)

/-- A plan (R88) does nothing but write zones and channels and enter levels. -/
theorem plan_keeps (z : Fin 5) (zn : Zone) (s : State) (hs : P s) : P (plan p z zn s) := by
  unfold plan
  dsimp only
  split
  · exact giveSwitched_keeps h _ _ _ (enterRamping_keeps h _ _ _ _ hs)
  · split
    · split
      · exact giveSwitched_keeps h _ _ _ (enterBoostOnWait_keeps h _ _ _ hs)
      · split
        · exact giveSwitched_keeps h _ _ _ (enterRamping_keeps h _ _ _ _ hs)
        · split
          · exact giveSwitched_keeps h _ _ _ (enterRamping_keeps h _ _ _ _ hs)
          · exact giveSwitched_keeps h _ _ _ (enterBoostOnWait_keeps h _ _ _ hs)
    · split
      · exact giveSwitched_keeps h _ _ _ (enterBoostOffPrep_keeps h _ _ _ _ hs)
      · exact giveSwitched_keeps h _ _ _ (enterRamping_keeps h _ _ _ _ hs)

theorem zoneArrive_keeps (z : Fin 5) (target : Nat) (s : State) (hs : P s) :
    P (zoneArrive p z target s) := by
  unfold zoneArrive
  split
  · exact hs
  · split
    · exact plan_keeps h _ _ _ hs
    · exact plan_keeps h _ _ _ hs
    · exact h.zone _ _ _ hs
    · exact h.zone _ _ _ hs
    · exact plan_keeps h _ _ _ hs
    · split
      · exact plan_keeps h _ _ _ hs
      · exact h.zone _ _ _ hs
    · exact h.zone _ _ _ hs

theorem handTargets_keeps (s : State) (hs : P s) : P (handTargets p s) :=
  forEach_keeps (fun z _ s hs => zoneArrive_keeps h z _ s hs) s hs

theorem enterHeld_keeps (z : Fin 5) (s : State) (hs : P s) : P (enterHeld p z s) := by
  unfold enterHeld
  split
  · exact hs
  · exact h.zone _ _ _ hs

theorem leaveHeld_keeps (z : Fin 5) (s : State) (hs : P s) : P (leaveHeld p z s) := by
  unfold leaveHeld
  split
  · exact hs
  · exact plan_keeps h _ _ _ hs

theorem testZone_keeps (k : Circuit) (hk : C k) (s : State) (hs : P s) : P (testZone k s) := by
  unfold testZone
  rw [h.place k hk]
  split
  · exact hs
  · exact testComplete_keeps h _ _ hs

theorem returnToAuto_keeps (k : Circuit) (hk : C k) (s : State) (hs : P s) :
    P (returnToAuto k s) := by
  have hfree := h.channel k { s.channel k.cfg.channel with hand := none } s hk hs
  unfold returnToAuto
  dsimp only
  split
  · exact driveSwitched_keeps h _ hk _ hfree
  · rw [h.place k hk]
    apply testComplete_keeps h
    apply driveSwitched_keeps h _ hk
    split
    · exact holdTarget_keeps h _ hk _ hfree
    · exact hfree

theorem commandFailLevels_keeps (s : State) (hs : P s) : P (commandFailLevels p s) :=
  forEach_keeps (fun k hk s' hs' => command_keeps h k (h.scope s hs k hk) k.cfg.failLevel s' hs') s hs

theorem leaveFailLevel_keeps (k : Circuit) (hk : C k) (s : State) (hs : P s) :
    P (leaveFailLevel k s) := by
  unfold leaveFailLevel
  split
  · exact command_keeps h _ hk _ _ hs
  · exact driveSwitched_keeps h _ hk _ hs

theorem enterLevel_keeps (k : Circuit) (hk : C k) (s : State) (hs : P s) : P (enterLevel k s) := by
  unfold enterLevel
  split
  · exact hs
  · rw [h.place k hk]
    exact h.enter _ _ _ hk hs

end Light

section Posts

variable {P : State → Prop} (h : KeptByPosts P)
include h

theorem postAll_keeps (e : Event) (he : e.kind ≠ 2) (s : State) (hs : P s) : P (postAll e s) :=
  h _ _ _ he (h _ _ _ he (h _ _ _ he hs))

theorem postOthers_keeps (seat : Seat) (e : Event) (he : e.kind ≠ 2) (s : State) (hs : P s) :
    P (postOthers seat e s) := by
  cases seat <;> exact h _ _ _ he (h _ _ _ he hs)

theorem postSwitched_keeps (p : Fin 4) (z : Fin 5) (make : Fin 32 → Event)
    (he : ∀ c, (make c).kind ≠ 2) (s : State) (hs : P s) : P (postSwitched p z make s) := by
  unfold postSwitched
  split
  · exact hs
  · exact postAll_keeps h _ (he _) _ hs

end Posts

/-! ### The boost (R91, R94 to R96) -/

section Boost

variable {P : State → Prop} {p : Fin 4} {C : Circuit → Prop} (h : KeptByLight p C P)
  (hp : KeptByPosts P)
include h hp

theorem degrade_keeps (z : Fin 5) (zn : Zone) (s : State) (hs : P s) : P (degrade p z zn s) :=
  plan_keeps h _ _ _ (postSwitched_keeps hp p z _ (fun _ => by simp [Event.kind]) _ hs)

theorem confirmation_keeps (z : Fin 5) (s : State) (hs : P s) : P (confirmation p z s) := by
  have told : P (postSwitched p z (fun c => .channelOk p c .boostConfirmed) s) :=
    postSwitched_keeps hp p z _ (fun _ => by simp [Event.kind]) _ hs
  unfold confirmation
  dsimp only
  split
  · exact hs
  · split
    · exact hs
    · split
      · split
        · exact holdDimmed_keeps h _ _ (h.zone _ _ _ told)
        · exact h.zone _ _ _ told
      · split
        · exact h.zone _ _ _ hs
        · exact h.zone _ _ _ hs

theorem boostLost_keeps (z : Fin 5) (s : State) (hs : P s) : P (boostLost p z s) := by
  unfold boostLost
  dsimp only
  split
  · exact hs
  · split
    · exact hs
    · split
      · split
        · exact degrade_keeps h hp _ _ _ hs
        · exact h.zone _ _ _ hs
      · split
        · exact degrade_keeps h hp _ _ _ hs
        · exact h.zone _ _ _ hs
      · exact degrade_keeps h hp _ _ _ hs
      · exact h.zone _ _ _ hs

end Boost

/-! ### Stage, source and claims -/

section Stage

variable {P : State → Prop} {p : Fin 4} {C : Circuit → Prop} (h : KeptByStage p C P)
include h

theorem resolveStage_keeps (s : State) (hs : P s) : P (resolveStage p s) := by
  unfold resolveStage
  dsimp only
  split
  · exact hs
  · exact postAll_keeps h.post _ (by simp [Event.kind]) _ (h.arbiter _ _ rfl hs)

theorem resolve_keeps (s : State) (hs : P s) : P (resolve p s) := by
  have hr := resolveStage_keeps h s hs
  unfold resolve
  dsimp only
  split
  · exact hr
  · exact handTargets_keeps h.toKeptByLight _ hr

theorem setStage_keeps (stage : Nat) (s : State) (hs : P s) : P (setStage p stage s) :=
  h.arbiter _ _ rfl (h.selector _ _ hs)

theorem moveTo_keeps (stage : Nat) (s : State) (hs : P s) : P (moveTo p stage s) :=
  resolve_keeps h _ (setStage_keeps h stage s hs)

theorem downward_keeps (s : State) (hs : P s) : P (downward p s) := by
  unfold downward
  dsimp only
  split
  · exact moveTo_keeps h _ _ hs
  · exact hs

theorem offer_keeps (demand : Nat) (s : State) (hs : P s) : P (offer p demand s) := by
  have hf : P (follow p true (some demand) s) := h.selector _ _ hs
  unfold offer
  dsimp only
  split
  · exact moveTo_keeps h _ _ hf
  · exact downward_keeps h _ hf

theorem enterTop_keeps (s : State) (hs : P s) : P (enterTop p s) :=
  moveTo_keeps h _ _ (h.selector _ _ hs)

theorem selectInitial_keeps (demand : Nat) (s : State) (hs : P s) : P (selectInitial p demand s) :=
  moveTo_keeps h _ _ (h.selector _ _ hs)

theorem handOver_keeps (base : BaseState) (status : SourceStatus) (s : State) (hs : P s) :
    P (handOver p base status s) := by
  unfold handOver
  dsimp only
  split
  · split
    · exact offer_keeps h _ _ hs
    · split
      · split
        · exact hs
        · exact enterTop_keeps h _ hs
      · split
        · exact selectInitial_keeps h _ _ hs
        · split
          · exact offer_keeps h _ _ hs
          · exact hs
  · exact hs

end Stage

section Source

variable {P : State → Prop} {p : Fin 4} {C : Circuit → Prop} (h : KeptBySource p C P)
include h

theorem startRunning_keeps (s : State) (hs : P s) : P (startRunning p s) := by
  unfold startRunning
  dsimp only
  split
  · next hc => exact h.eval _ _ (h.base _ hc.1 hs)
  · exact hs

theorem evaluateOnly_keeps (s : State) (hs : P s) : P (evaluateOnly p s) := by
  have hrun := startRunning_keeps h s hs
  unfold evaluateOnly
  dsimp only
  apply h.eval
  split
  · exact hrun
  · exact postAll_keeps h.post _ (by simp [Event.kind]) _ hrun

/-- An evaluation with everything that follows from it (R30 to R33, R46 to R57, R72 to R74, R89). -/
theorem evaluate_keeps (s : State) (hs : P s) : P (evaluate p s) :=
  handOver_keeps h.toKeptByStage _ _ _ (evaluateOnly_keeps h s hs)

theorem claimsChanged_keeps (injection : Bool) (s : State) (hs : P s) :
    P (claimsChanged p injection s) := by
  have hr := resolve_keeps h.toKeptByStage s hs
  unfold claimsChanged
  dsimp only
  split
  · exact evaluate_keeps h _ hr
  · exact hr

/-- A removal of claims keeps what a write of the shortened list keeps, and what its events keep. -/
theorem removeClaims_keeps (gone : Claim → Bool) (tell : Claim → State → State)
    (ht : ∀ c s, P s → P (tell c s))
    (hc : ∀ s, P s → P (setClaims p ((s.arbiter p).claims.filter fun c => !gone c) s))
    (s : State) (hs : P s) : P (removeClaims p gone tell s) := by
  unfold removeClaims
  dsimp only
  split
  · exact claimsChanged_keeps h _ _ (forEach_keeps (fun c _ s hs => ht c s hs) _ (hc s hs))
  · exact hs

theorem meterEnteredValid_keeps (s : State) (hs : P s) : P (meterEnteredValid p s) :=
  evaluate_keeps h _ (h.eval _ _ hs)

theorem meterLeftValid_keeps (best : Nat) (s : State) (hs : P s) : P (meterLeftValid p best s) := by
  unfold meterLeftValid
  split
  · exact evaluate_keeps h _ (h.eval _ _ hs)
  · exact evaluate_keeps h _ hs

omit h in
theorem changeMeter_keeps (hp : KeptByPosts P) (m : Fin 8) (q : Fin 4) (cause : MeterCause) (x : Meter)
    (s : State) (hs : P (s.setMeter m x)) : P (changeMeter m q cause x s) := by
  unfold changeMeter
  dsimp only
  split
  · exact hs
  · exact postAll_keeps hp _ (by simp [Event.kind]) _ hs

/-- The handling of a reading keeps what every write of meter `m` keeps whose ring is the old one,
empty, or one reading longer by `joinRing`. -/
theorem handleReading_keeps (m : Fin 8) (f : ReadingFrame)
    (hm : ∀ x s, (x.ring = (s.meter m).ring ∨ (∃ r, x.ring = joinRing (s.meter m).ring r) ∨
      ∃ r, x.ring = joinRing [] r) → P s → P (s.setMeter m x))
    (s : State) (hs : P s) : P (handleReading m p f s) := by
  have noted : P (noteFrame m f s) := by
    unfold noteFrame
    dsimp only
    split
    · exact hm _ _ (Or.inl rfl) hs
    · exact postAll_keeps h.post _ (by simp [Event.kind]) _ (hm _ _ (Or.inl rfl) hs)
  have fault (cause : MeterCause) : P (sendToFault m p cause (noteFrame m f s)) := by
    unfold sendToFault
    dsimp only
    split
    · exact meterLeftValid_keeps h _ _
        (changeMeter_keeps h.post _ _ _ _ _ (hm _ _ (Or.inl rfl) noted))
    · exact changeMeter_keeps h.post _ _ _ _ _ (hm _ _ (Or.inl rfl) noted)
  unfold handleReading
  dsimp only
  split
  · unfold sensorFault
    split
    · exact noted
    · exact fault _
  · split
    · unfold rangeFault
      dsimp only
      split
      · exact noted
      · exact noted
      · exact fault _
      · split
        · exact fault _
        · exact hm _ _ (Or.inl rfl) noted
      · split
        · exact fault _
        · exact hm _ _ (Or.inl rfl) noted
    · unfold acceptReading
      dsimp only
      split
      · exact noted
      · split
        · exact meterEnteredValid_keeps h _
            (changeMeter_keeps h.post _ _ _ _ _ (hm _ _ (Or.inr (Or.inl ⟨_, rfl⟩)) noted))
        · exact hm _ _ (Or.inr (Or.inl ⟨_, rfl⟩)) noted
      · exact evaluate_keeps h _ (hm _ _ (Or.inr (Or.inl ⟨_, rfl⟩)) noted)
      · exact changeMeter_keeps h.post _ _ _ _ _ (hm _ _ (Or.inr (Or.inr ⟨_, rfl⟩)) noted)
      · exact changeMeter_keeps h.post _ _ _ _ _ (hm _ _ (Or.inr (Or.inr ⟨_, rfl⟩)) noted)

end Source

/-! ### Trips (R110, R116, R120) -/

section Trips

variable {P : State → Prop} {p : Fin 4} {C : Circuit → Prop} (h : KeptByTrips p C P)
include h

theorem enterTrip_keeps (s : State) (hs : P s) : P (enterTrip p s) :=
  forEach_keeps (fun z _ s hs => enterHeld_keeps h.toKeptByLight z s hs) _
    (commandFailLevels_keeps h.toKeptByLight _ (h.trip _ _ hs))

theorem exitTrip_keeps (s : State) (hs : P s) : P (exitTrip p s) := by
  have hc := postAll_keeps h.post (.tripCleared p) (by simp [Event.kind]) _
    (h.trip { s.tripUnit p with overlay := false } s hs)
  have hz := forEach_keeps (l := allZones) (f := leaveHeld p)
    (fun z _ s hs => leaveHeld_keeps h.toKeptByLight z s hs) _ hc
  unfold exitTrip
  dsimp only
  generalize forEach allZones (leaveHeld p) _ = planned at hz ⊢
  have cs : ∀ k ∈ planned.circuits p, C k := h.scope _ hz
  generalize planned.circuits p = ks at cs ⊢
  exact forEach_keeps (fun k hk s hs => leaveFailLevel_keeps h.toKeptByLight k (cs k hk) s hs) _ hz

theorem joinSource_keeps (source : TripSource) (s : State) (hs : P s) : P (joinSource p source s) := by
  unfold joinSource
  dsimp only
  apply postAll_keeps h.post _ (by simp [Event.kind])
  split
  · exact h.trip _ _ hs
  · exact enterTrip_keeps h _ (h.trip _ _ hs)

theorem joinIfNew_keeps (new kept : TripSet) (x : TripSource) (s : State) (hs : P s) :
    P (joinIfNew p new kept x s) := by
  unfold joinIfNew
  split
  · exact joinSource_keeps h _ _ hs
  · exact hs

/-- The recomputation of the trip sources with everything that follows from it. -/
theorem recompute_keeps (s : State) (hs : P s) : P (recompute p s) := by
  have joined (new kept : TripSet) (u : State) (hu : P u) :
      P (joinIfNew p new kept .order (joinIfNew p new kept .line (joinIfNew p new kept .fire u))) :=
    joinIfNew_keeps h _ _ _ _ (joinIfNew_keeps h _ _ _ _ (joinIfNew_keeps h _ _ _ _ hu))
  unfold recompute
  dsimp only
  split
  · exact exitTrip_keeps h _ (joined _ _ _ (h.trip _ _ hs))
  · exact joined _ _ _ (h.trip _ _ hs)

theorem latchFire_keeps (s : State) (hs : P s) : P (latchFire p s) := by
  unfold latchFire
  split
  · exact h.trip _ _ hs
  · exact hs

theorem orderTrip_keeps (seat : Seat) (reason : Nat) (s : State) (hs : P s) :
    P (orderTrip seat reason p s) := by
  unfold orderTrip
  dsimp only
  split
  · exact hs
  · exact recompute_keeps h _ (h.trip _ _ hs)

theorem resetTrip_keeps (fire order : Bool) (s : State) (hs : P s) : P (resetTrip fire order p s) :=
  recompute_keeps h _ (h.trip _ _ hs)

/-- The test of the line condition (R134), given that its own write is kept. -/
theorem testLine_keeps
    (hd : ∀ b s, P s → P (s.setLine p { s.lampLine p with down := b })) (s : State) (hs : P s) :
    P (testLineOnly p s) ∧ P (testLine p s) := by
  have told : P (testLineOnly p s) := by
    unfold testLineOnly
    dsimp only
    split
    · exact hs
    · exact h.trip _ _ (postAll_keeps h.post _ (by simp [Event.kind]) _ (hd _ _ hs))
  refine ⟨told, ?_⟩
  unfold testLine
  split
  · exact hs
  · exact recompute_keeps h _ told

end Trips

/-! ### Replies and misses (R131 to R138) -/

section Replies

variable {P : State → Prop} {p : Fin 4} {C : Circuit → Prop} (h : KeptByReplies p C P)
include h

theorem recoverChannel_keeps (k : Circuit) (hk : C k) (s : State) (hs : P s) :
    P (recoverChannel k s) := by
  unfold recoverChannel
  rw [h.place k hk]
  exact h.test _ (enterLevel_keeps h.toKeptByLight _ hk _
    (postAll_keeps h.post _ (by simp [Event.kind]) _ hs))

theorem postFlag_keeps (k : Circuit) (before after : Bool) (set : FaultReason) (clear : OkReason)
    (s : State) (hs : P s) : P (postFlag k before after set clear s) := by
  unfold postFlag
  split
  · exact hs
  · split
    · exact postAll_keeps h.post _ (by simp [Event.kind]) _ hs
    · exact postAll_keeps h.post _ (by simp [Event.kind]) _ hs

theorem tellZone_keeps (k : Circuit) (hk : C k) (tell : Fin 4 → Fin 5 → State → State)
    (ht : ∀ z s, P s → P (tell p z s)) (s : State) (hs : P s) : P (tellZone k tell s) := by
  unfold tellZone
  rw [h.place k hk]
  split
  · exact hs
  · split
    · exact ht _ _ hs
    · exact hs

/-- What a reply does to the channel on the line that it comes from. -/
theorem replyActs_keeps (k : Circuit) (hk : C k) (t : Station) (f : StatusFrame) (s : State)
    (hs : P s) : P (replyActs k t f s) := by
  unfold replyActs
  dsimp only
  have stored : P (s.setLine k.portal
      { s.lampLine k.portal with
        stations := wr (s.lampLine k.portal).stations k.addr
          (some { t with misses := 0, status := some (f.status k.cfg.switched s.tenths) }) }) := by
    rw [h.place k hk]
    exact h.station _ _ _ (Or.inl rfl) hs
  have recovered (u : State) (hu : P u) : P (if t.misses == 3 then recoverChannel k u else u) := by
    split
    · exact recoverChannel_keeps h _ hk _ hu
    · exact hu
  have told := postFlag_keeps h k (t.status.any DriverStatus.supply) f.supply .supply .supply _
    (postFlag_keeps h k (t.status.any DriverStatus.lamp) f.lamp .lamp .lamp _ (recovered _ stored))
  split
  · exact told
  · apply tellZone_keeps h _ hk
    · intro z s hs
      split
      · exact confirmation_keeps h.toKeptByLight h.post _ _ hs
      · exact boostLost_keeps h.toKeptByLight h.post _ _ hs
    · exact told

/-- What a miss does to the channel on the line that it is counted against. -/
theorem missActs_keeps (k : Circuit) (hk : C k) (t : Station) (isLevel : Bool) (s : State)
    (ht : rd (s.lampLine k.portal).stations k.addr = some t) (hs : P s) :
    P (missActs k t isLevel s) := by
  unfold missActs
  dsimp only
  split
  · exact hs
  · next hm =>
    have counted : P (s.setLine k.portal
        { s.lampLine k.portal with
          stations := wr (s.lampLine k.portal).stations k.addr
            (some { t with misses := t.misses + 1 }) }) := by
      rw [h.place k hk] at ht ⊢
      exact h.station _ _ _ (Or.inr (Or.inr ⟨t, ht, hm, rfl⟩)) hs
    split
    · rw [h.place k hk] at counted ⊢
      exact h.test _ (tellZone_keeps h _ hk _
        (fun _ _ hs => boostLost_keeps h.toKeptByLight h.post _ _ hs) _
        (postAll_keeps h.post _ (by simp [Event.kind]) _ counted))
    · split
      · exact enterLevel_keeps h.toKeptByLight _ hk _ counted
      · exact counted

/-- The completion of a farewell, given that a channel of no active set may become unassigned. -/
theorem completeFarewell_keeps (a : Fin 16) (c : Fin 32)
    (hgone : ∀ s, s.assignment c = none → P s → P (s.setChannel c Channel.unassigned)) (s : State)
    (hs : P s) : P (completeFarewell p a c s) := by
  have dropped : P (s.setLine p ((s.lampLine p).dropDeparted a c)) := h.departed _ s hs
  unfold completeFarewell
  dsimp only
  split
  · split
    · unfold takeUpAddress
      split
      · exact dropped
      · next k hk =>
        have hc := h.scope _ dropped k (mem_of_find hk)
        refine enterLevel_keeps h.toKeptByLight _ hc _ (h.station _ _ _ ?_ ?_)
        · dsimp only
          split <;> simp
        · obtain rfl := channel_of_find hk
          exact h.channel k _ _ hc dropped
    · unfold unassignIfGone
      split
      · next hc => exact hgone _ hc dropped
      · exact dropped
  · exact dropped

/-- The end of a transaction, given what its end does to the channel it belongs to, and that the channel
whose farewell its frame carried may become unassigned. -/
theorem endTransaction_keeps (x : Transaction) (act : Circuit → Station → State → State)
    (hact : ∀ k t s, C k → rd (s.lampLine k.portal).stations k.addr = some t → P s → P (act k t s))
    (hgone : ∀ c s, x.departing = some c → s.assignment c = none → P s →
      P (s.setChannel c Channel.unassigned))
    (s : State) (hs : P s) : P (endTransaction p x act s) := by
  have free := h.tx s hs
  have acted : P
      (match (s.setLine p { s.lampLine p with tx := none }).txTarget p x with
        | none => s.setLine p { s.lampLine p with tx := none }
        | some (k, t) => act k t (s.setLine p { s.lampLine p with tx := none })) := by
    split
    · exact free
    · next k t ht =>
      obtain ⟨h1, h2, h3, h4⟩ := txTarget_spec ht
      exact hact _ _ _ (h.scope _ free k h1) (by rw [h2, h3]; exact h4) free
  unfold endTransaction
  dsimp only
  split
  · exact acted
  · next c hc => exact completeFarewell_keeps h _ _ (fun s => hgone c s hc) _ acted

end Replies

end Sys2Proof.Machine
end

