-- ==== Sys2Proof/Laws/Adopt.lean ====
section
/-! SUPPORT. What an adoption can do, said once in the form of Laws/Keeps.lean: it keeps every property
that the activation of the set gives and the single writes of its blocks keep. -/

namespace Sys2Proof.Machine

/-- Kept by what an adoption of portal `p` writes between the activation of the new set and the Trip
Unit's acts: the evaluation, the selection, the resolution, the channels and the zones. -/
structure KeptByAdoption (p : Fin 4) (C : Circuit → Prop) (P : State → Prop) : Prop
    extends KeptBySource p C P where
  meter : ∀ m x s, (x.ring = (s.meter m).ring ∨ x.ring = []) → P s → P (s.setMeter m x)
  freezes : ∀ s, P s → P (rewriteFreezes p s)
  test : ∀ s, P s → P (testLineOnly p s)
  leave : ∀ k replaced s, C k → P s →
    P (s.setLine p ((s.lampLine p).leave k.addr k.cfg.channel replaced))
  join : ∀ k b s, C k → P s → P (s.setLine p
    (((s.lampLine p).station k.addr k.cfg.channel b).enter k.addr 0 k.cfg.channel))

/-- The acts of the Trip Unit in an adoption, by its single writes. -/
theorem adoptTrip_keeps {P : State → Prop} {p : Fin 4} {C : Circuit → Prop} (h : KeptByTrips p C P)
    (old : PortalRecord) (s : State) (hs : P s) : P (adoptTrip p old s) := by
  have reread (c : Prop) [Decidable c] (u : TripUnit) : P (if c then s.setTrip p u else s) := by
    split
    · exact h.trip _ _ hs
    · exact hs
  unfold adoptTrip
  dsimp only
  split
  · exact h.trip _ _ (reread _ _)
  · exact latchFire_keeps h _ (reread _ _)

section Adoption

variable {P : State → Prop} {p : Fin 4} {C : Circuit → Prop} (h : KeptByAdoption p C P)
include h

theorem adoptMeter_keeps (old new : PortalRecord) (m : Fin 8) (s : State) (hs : P s) :
    P (adoptMeter p old new m s) := by
  have hring (x : Meter) (t : Nat) : (x.rebind t).ring = x.ring := by
    unfold Meter.rebind
    split <;> rfl
  have hexp (x : Meter) : x.expire.ring = x.ring ∨ x.expire.ring = [] := by
    unfold Meter.expire
    split
    · exact Or.inr rfl
    · exact Or.inl rfl
    · exact Or.inl rfl
  unfold adoptMeter
  dsimp only
  split
  · split
    · have kept := h.meter m ((s.meter m).rebind new.tStale) s (Or.inl (hring _ _)) hs
      split
      · refine changeMeter_keeps h.post _ _ _ _ _ (h.meter _ _ _ ?_ kept)
        have hread : ((s.setMeter m ((s.meter m).rebind new.tStale)).meter m).ring =
            ((s.meter m).rebind new.tStale).ring := by
          simp [State.meter]
        rw [hread]
        exact hexp _
      · exact kept
    · exact changeMeter_keeps h.post _ _ _ _ _ (h.meter _ _ _ (Or.inr rfl) hs)
  · split
    · exact changeMeter_keeps h.post _ _ _ _ _ (h.meter _ _ _ (Or.inr rfl) hs)
    · exact hs

theorem adoptSource_keeps (base : BaseState) (old : PortalRecord) (best : Nat) (s : State)
    (hs : P s) : P (adoptSource p base old best s) := by
  have done (e : Evaluator) (c : Prop) [Decidable c] :
      P (if c then (s.setEval p e).setEval p e.lose else s.setEval p e) := by
    split
    · exact h.eval _ _ (h.eval _ _ hs)
    · exact h.eval _ _ hs
  unfold adoptSource
  dsimp only
  exact done _ _

theorem adoptSelection_keeps (s : State) (hs : P s) : P (adoptSelection p s) := by
  unfold adoptSelection
  dsimp only
  split
  · exact setStage_keeps h.toKeptByStage _ _ (h.selector _ _ hs)
  · exact setStage_keeps h.toKeptByStage _ _ (h.selector _ _ hs)

theorem releaseForAdoption_keeps (k : Circuit) (hk : C k) (s : State) (hs : P s) :
    P (releaseForAdoption k s) := by
  unfold releaseForAdoption
  dsimp only
  split
  · exact hs
  · exact h.post _ _ _ (by simp [Event.kind]) (h.channel _ _ _ hk hs)

theorem leavePass_keeps (new : PortalSet) (k : Circuit) (hk : C k) (s : State) (hs : P s) :
    P (leavePass new k s) := by
  have leave (replaced : Bool) : P (leaveChannel k replaced s) := by
    unfold leaveChannel
    dsimp only
    rw [h.place k hk]
    exact h.leave _ _ _ hk (h.channel _ _ _ hk (releaseForAdoption_keeps h k hk _ hs))
  unfold leavePass
  split
  · exact leave _
  · split
    · exact hs
    · exact leave _

theorem joinPass_keeps (old : PortalSet) (down : Bool) (k : Circuit) (hk : C k) (s : State)
    (hs : P s) : P (joinPass old down k s) := by
  have joined (x : Channel) := h.channel k x s hk hs
  unfold joinPass
  dsimp only
  split
  · rw [h.place k hk]
    exact h.join _ _ _ hk (joined _)
  · split
    · exact joined _
    · split
      · unfold keepChannel
        dsimp only
        split
        · exact h.channel _ _ _ hk hs
        · split
          · exact h.channel _ _ _ hk hs
          · exact command_keeps h.toKeptByLight _ hk _ _ (h.channel _ _ _ hk hs)
      · exact releaseForAdoption_keeps h _ hk _ hs

theorem settlePass_keeps (k : Circuit) (hk : C k) (s : State) (hs : P s) : P (settlePass k s) := by
  have targeted : P (if k.cfg.zone = none then driveSwitched k (giveTarget k 0 s) else s) := by
    split
    · exact driveSwitched_keeps h.toKeptByLight _ hk _
        (giveTarget_keeps h.toKeptByLight _ hk _ _ hs)
    · exact hs
  unfold settlePass
  dsimp only
  split
  · exact command_keeps h.toKeptByLight _ hk _ _ targeted
  · exact targeted

/-- The channel cases of an adoption, given that the circuits of the old set are in `C`. -/
theorem adoptChannels_keeps (old : PortalSet) (hold : ∀ k ∈ old.circuits p, C k) (s : State)
    (hs : P s) : P (adoptChannels p old s) := by
  have hnew := h.scope s hs
  unfold adoptChannels
  dsimp only
  have settled : P (forEach (s.circuits p) settlePass
      (forEach (s.circuits p) (joinPass old (s.lampLine p).down)
        (forEach (old.circuits p) (leavePass (s.set p)) s))) :=
    forEach_keeps (fun k hk s hs => settlePass_keeps h k (hnew k hk) s hs) _
      (forEach_keeps (fun k hk s hs => joinPass_keeps h _ _ k (hnew k hk) s hs) _
        (forEach_keeps (fun k hk s hs => leavePass_keeps h _ k (hold k hk) s hs) _ hs))
  exact h.test _ settled

theorem adoptZone_keeps (old : PortalSet) (z : Fin 5) (s : State) (hs : P s) :
    P (adoptZone p old z s) := by
  unfold adoptZone
  dsimp only
  split
  · split
    · split
      · exact h.zone _ _ _ hs
      · exact plan_keeps h.toKeptByLight _ _ _ hs
    · split
      · exact h.zone _ _ _ hs
      · exact plan_keeps h.toKeptByLight _ _ _ hs
  · exact h.zone _ _ _ hs

/-- An adoption up to the acts of the Trip Unit, given what its activation gives. -/
theorem adoptLit_keeps (new : PortalSet) (s : State) (hold : ∀ k ∈ (s.set p).circuits p, C k)
    (hact : P (activate p new s)) :
    P (forEach allZones (adoptZone p (s.set p)) (adoptChannels p (s.set p) (resolveStage p
      (rewriteFreezes p (adoptSelection p (evaluateOnly p (adoptSource p (s.baseOf p) (s.record p)
        (s.bestEstimate p)
        (forEach allMeters (adoptMeter p (s.record p) new.record) (activate p new s))))))))) :=
  forEach_keeps (fun z _ s hs => adoptZone_keeps h _ z s hs) _
    (adoptChannels_keeps h _ hold _ (resolveStage_keeps h.toKeptByStage _
      (h.freezes _ (adoptSelection_keeps h _ (evaluateOnly_keeps h.toKeptBySource _
        (adoptSource_keeps h _ _ _ _ (forEach_keeps
          (fun m _ s hs => adoptMeter_keeps h _ _ m s hs) _ hact)))))))

/-- An adoption, given what its activation gives and what its last acts keep. -/
theorem adopt_keeps (pending : PendingSet) (s : State) (hold : ∀ k ∈ (s.set p).circuits p, C k)
    (hact : P (activate p pending.set s))
    (htrip : ∀ u, P u → P (recompute p (adoptTrip p (s.record p) u)))
    (hshadow : ∀ u, P u → P (refreshShadow p u)) : P (adopt p pending s) := by
  unfold adopt
  dsimp only
  exact hshadow _ (postAll_keeps h.post _ (by simp [Event.kind]) _
    (htrip _ (adoptLit_keeps h _ s hold hact)))

end Adoption

end Sys2Proof.Machine
end

