-- ==== Sys2Proof/Laws/Blocks.lean ====
section
/-! SUPPORT. What the operations on one block's own data do: event queues, the topmost INJECT
claim, update sets, sample rings, seat outcomes, and the transactions that begin at the end of an event. -/

namespace Sys2Proof.Machine

/-! ### Seats and outcomes -/

theorem seatIx_inj {a b : Seat} : seatIx a = seatIx b ↔ a = b := by
  cases a <;> cases b <;> decide

theorem port_setPort (s : State) (a b : Seat) (x : SeatPort) :
    (s.setPort a x).port b = if a = b then x else s.port b := by
  simp [State.port, rd_wr, seatIx_inj]

theorem queue_setQueue (s : State) (a b : Seat) (x : EventQueue) :
    (s.setQueue a x).queue b = if a = b then x else s.queue b := by
  simp [State.queue, rd_wr, seatIx_inj]

theorem refuse_eq_denied (seat : Seat) (code : ResultCode) (value : Nat) (s : State) :
    refuse seat code value s = denied seat code value s := rfl

theorem accept_eq_answer (seat : Seat) (value : Nat) (c l p : Bool) (s : State) :
    accept seat value c l p s = answer seat .ok value true c (s.raisedFlag seat || l) p s := rfl

theorem accept_eq_granted (seat : Seat) (value : Nat) (c : Bool) (s : State) :
    accept seat value c false false s = granted seat value c s := by
  simp [accept_eq_answer, granted]

theorem inHeader_run {seat : Seat} {s : State} (h : (s.port seat).phase = .header)
    (run : State → State) : inHeader seat s run = run s := if_pos h

theorem inHeader_outside {seat : Seat} {s : State} (h : (s.port seat).phase ≠ .header)
    (run : State → State) : inHeader seat s run = s := if_neg h

theorem withRecord_run {seat : Seat} {n : Nat} {bytes : List Byte} {s : State}
    (h : (s.port seat).phase = .header) (hn : bytes.length = n) (run : State → State) :
    withRecord seat n bytes s run = run s := by
  rw [withRecord, if_pos hn, inHeader_run h]

/-! ### The topmost INJECT claim (R75) -/

/-- A removal that spares the topmost INJECT claim leaves it topmost. -/
theorem topInject_of_spared {a : Arbiter} {gone : Claim → Bool} (h : a.topInject.any gone = false) :
    Arbiter.topInject { a with claims := a.claims.filter fun c => !gone c } = a.topInject := by
  unfold Arbiter.topInject at *
  dsimp only
  rw [← List.filter_reverse, List.find?_filter]
  generalize a.claims.reverse = l at *
  induction l with
  | nil => rfl
  | cons c l ih =>
    by_cases hc : c.kind == .inject <;> simp_all

/-- A removal of the topmost INJECT claim makes an older one topmost, or leaves none. -/
theorem topInject_of_removed {a : Arbiter} {gone : Claim → Bool} (h : a.topInject.any gone = true) :
    Arbiter.topInject { a with claims := a.claims.filter fun c => !gone c } ≠ a.topInject := by
  intro he
  cases ht : a.topInject with
  | none => simp [ht] at h
  | some c =>
    rw [ht] at h he
    have := List.mem_of_find?_eq_some he
    simp_all

/-! ### Event queues (R169 to R174) -/

theorem isOverflow_eq (r : EventRecord) : r.isOverflow = (r.event.kind == 2) := by
  obtain ⟨e, _, _⟩ := r
  cases e <;> rfl

/-- Placing an event of the catalogue other than OVERFLOW keeps a queue well-formed. -/
theorem EventQueue.place_wf {q : EventQueue} (h : q.wf) (e : Event) (he : e.kind ≠ 2) (time : Nat) :
    (q.place e time).wf := by
  obtain ⟨reports, last, hr, hlen, hn, ho, hq, hs, ha⟩ := h
  unfold EventQueue.place
  split
  · exact ⟨reports, last, hr, hlen, hn, ho, hq, hs, ha⟩
  · split
    · exact ⟨reports, last, hr, hlen, hn, ho, hq, Nat.mod_lt _ (by decide), ha⟩
    · next hover =>
      have hnone : last = none := by
        cases last with
        | none => rfl
        | some r => simp [hq] at hover
      subst hnone
      simp only [Option.toList_none, List.append_nil] at hr
      split
      · next hshort =>
        refine ⟨reports ++ [{ event := e, seq := q.seq, time := time }], none, ?_, ?_, ?_, ?_, ?_, ?_, ?_⟩
        · simp [EventQueue.append, hr]
        · rw [hr] at hshort
          simp only [List.length_append, List.length_singleton]
          omega
        · intro r hmem
          rw [List.mem_append, List.mem_singleton] at hmem
          rcases hmem with hmem | rfl
          · exact hn r hmem
          · simp [isOverflow_eq, he]
        · simp
        · simpa [EventQueue.append] using hover
        · exact Nat.mod_lt _ (by decide)
        · simp [EventQueue.append, ha]
      · refine ⟨reports, some { event := .overflow e.kind, seq := q.seq, time := time },
          ?_, hlen, hn, ?_, rfl, Nat.mod_lt _ (by decide), ?_⟩
        · simp [EventQueue.append, hr]
        · intro r hmem
          cases hmem
          rfl
        · simp [EventQueue.append, ha]

/-- The pop of a delivered head keeps a queue well-formed. -/
theorem EventQueue.pop_wf {q : EventQueue} (h : q.wf) : q.pop.wf := by
  obtain ⟨reports, last, hr, hlen, hn, ho, hq, hs, ha⟩ := h
  cases reports with
  | nil =>
    cases last with
    | none =>
      simp only [Option.toList_none, List.append_nil] at hr
      refine ⟨[], none, ?_, by simp, by simp, by simp, ?_, hs, ?_⟩
      · simp [EventQueue.pop, hr]
      · simp [EventQueue.pop, hq]
      · simp [EventQueue.pop, hr, ha]
    | some r =>
      simp only [Option.toList_some, List.nil_append] at hr
      have hover := ho r rfl
      have hhead : q.headIsOverflow = true := by
        unfold EventQueue.headIsOverflow
        rw [hr]
        obtain ⟨e, _, _⟩ := r
        cases e <;> simp_all [EventRecord.isOverflow]
      refine ⟨[], none, ?_, by simp, by simp, by simp, ?_, hs, ?_⟩
      · simp [EventQueue.pop, hr]
      · simp [EventQueue.pop, hhead]
      · simp [EventQueue.pop, hr]
  | cons r rest =>
    have hplain := hn r List.mem_cons_self
    have hhead : q.headIsOverflow = false := by
      unfold EventQueue.headIsOverflow
      rw [hr]
      obtain ⟨e, _, _⟩ := r
      cases e <;> simp_all [EventRecord.isOverflow]
    refine ⟨rest, last, ?_, ?_, ?_, ho, ?_, hs, ?_⟩
    · simp [EventQueue.pop, hr]
    · simp only [List.length_cons] at hlen
      omega
    · exact fun x hx => hn x (List.mem_cons_of_mem _ hx)
    · simp [EventQueue.pop, hhead, hq]
    · simp [EventQueue.pop, hr, ha]

/-! ### Sample rings (R18) -/

theorem joinRing_length_le (ring : List Reading) (r : Reading) (h : ring.length ≤ 16) :
    (joinRing ring r).length ≤ 16 := by
  unfold joinRing
  split
  · rw [List.length_append, List.length_singleton]
    omega
  · rw [List.length_append, List.length_singleton, List.length_tail]
    omega

/-! ### Update sets and transactions (section 7.2) -/

namespace LampLine

@[simp] theorem enter_stations (l : LampLine) (a : Fin 16) (level : Nat) (c : Fin 32) :
    (l.enter a level c).stations = l.stations := by
  unfold enter
  split <;> rfl

@[simp] theorem enter_tx (l : LampLine) (a : Fin 16) (level : Nat) (c : Fin 32) :
    (l.enter a level c).tx = l.tx := by
  unfold enter
  split <;> rfl

@[simp] theorem enter_down (l : LampLine) (a : Fin 16) (level : Nat) (c : Fin 32) :
    (l.enter a level c).down = l.down := by
  unfold enter
  split <;> rfl

@[simp] theorem enter_departed (l : LampLine) (a : Fin 16) (level : Nat) (c : Fin 32) :
    (l.enter a level c).departed = l.departed := by
  unfold enter
  split <;> rfl

@[simp] theorem enterFarewell_stations (l : LampLine) (a : Fin 16) (c : Fin 32) :
    (l.enterFarewell a c).stations = l.stations := by
  unfold enterFarewell
  split <;> rfl

@[simp] theorem begin_stations (l : LampLine) (now : Nat) : (l.begin now).stations = l.stations := by
  unfold begin
  split
  · rfl
  · split
    · rfl
    · split <;> rfl

@[simp] theorem begin_down (l : LampLine) (now : Nat) : (l.begin now).down = l.down := by
  unfold begin
  split
  · rfl
  · split
    · rfl
    · split <;> rfl

@[simp] theorem begin_departed (l : LampLine) (now : Nat) : (l.begin now).departed = l.departed := by
  unfold begin
  split
  · rfl
  · split
    · rfl
    · split <;> rfl

/-- A line that has begun a transaction, or has nothing to do, begins no other. -/
theorem begin_busy {l : LampLine} {x : Transaction} (h : l.tx = some x) (now : Nat) :
    l.begin now = l := by
  unfold begin
  rw [h]

/-- Changing entries in place keeps their addresses. -/
theorem map_addr {l : List Entry} {put : Entry → Entry} (h : ∀ e, (put e).addr = e.addr) :
    (l.map put).map Entry.addr = l.map Entry.addr := by
  rw [List.map_map]
  exact List.map_congr_left fun e _ => h e

/-- A new entry at an address that none has keeps the addresses distinct. -/
theorem append_nodup {l : LampLine} {a : Fin 16} (h : (l.updates.map Entry.addr).Nodup)
    (hw : ¬ l.waits a = true) (e : Entry) (he : e.addr = a) :
    ((l.updates ++ [e]).map Entry.addr).Nodup := by
  rw [List.map_append, List.nodup_append]
  refine ⟨h, by simp, ?_⟩
  intro x hx y hy
  simp only [List.map_cons, List.map_nil, List.mem_singleton] at hy
  rw [hy, he]
  intro hxa
  apply hw
  obtain ⟨e', he', hxe⟩ := List.mem_map.mp hx
  unfold waits
  rw [List.any_eq_true]
  exact ⟨e', he', by simp [hxe, hxa]⟩

theorem enter_nodup {l : LampLine} (h : (l.updates.map Entry.addr).Nodup) (a : Fin 16) (level : Nat)
    (c : Fin 32) : ((l.enter a level c).updates.map Entry.addr).Nodup := by
  unfold enter
  split
  · dsimp only
    rw [map_addr]
    · exact h
    · intro e
      split <;> rfl
  · next hw => exact append_nodup h hw _ rfl

theorem enterFarewell_nodup {l : LampLine} (h : (l.updates.map Entry.addr).Nodup) (a : Fin 16)
    (c : Fin 32) : ((l.enterFarewell a c).updates.map Entry.addr).Nodup := by
  unfold enterFarewell
  split
  · dsimp only
    rw [map_addr]
    · exact h
    · intro e
      split <;> rfl
  · next hw => exact append_nodup h hw _ rfl

theorem leave_nodup {l : LampLine} (h : (l.updates.map Entry.addr).Nodup) (a : Fin 16) (c : Fin 32)
    (replaced : Bool) : ((l.leave a c replaced).updates.map Entry.addr).Nodup := by
  unfold leave
  exact enterFarewell_nodup (by exact h) a c

theorem begin_nodup {l : LampLine} (h : (l.updates.map Entry.addr).Nodup) (now : Nat) :
    ((l.begin now).updates.map Entry.addr).Nodup := by
  unfold begin
  split
  · exact h
  · split
    · next e rest hu =>
      rw [hu] at h
      exact (List.nodup_cons.mp h).2
    · split
      · exact h
      · exact h

end LampLine

/-! ### The end of an event (R126) -/

/-- At the end of an event each line begins by itself. -/
theorem beginTransactions_lampLine (s : State) (n : Fin 4) :
    (beginTransactions s).lampLine n = (s.lampLine n).begin s.now := by
  fin_cases n <;> simp [beginTransactions, forEach, allPortals, State.lampLine]

/-- At the end of an event nothing changes but the lamp lines. -/
theorem beginTransactions_rest (s : State) : { beginTransactions s with lines := s.lines } = s := by
  have each : ∀ (l : List (Fin 4)) (u : State),
      { forEach l (fun n s => s.setLine n ((s.lampLine n).begin s.now)) u with lines := s.lines } =
        { u with lines := s.lines } := by
    intro l
    induction l with
    | nil => intro u; rfl
    | cons n rest ih => intro u; exact ih _
  exact each allPortals s

/-- The end of an event keeps what each line's own begin keeps. -/
theorem beginTransactions_keeps {P : State → Prop}
    (h : ∀ n s, P s → P (s.setLine n ((s.lampLine n).begin s.now))) (s : State) (hs : P s) :
    P (beginTransactions s) := by
  have each : ∀ (l : List (Fin 4)) (u : State), P u →
      P (forEach l (fun n s => s.setLine n ((s.lampLine n).begin s.now)) u) := by
    intro l
    induction l with
    | nil => intro u hu; exact hu
    | cons n rest ih => intro u hu; exact ih _ (h n u hu)
  exact each allPortals s hs

@[simp] theorem beginTransactions_now (s : State) : (beginTransactions s).now = s.now := by
  have h := congrArg State.now (beginTransactions_rest s)
  exact h

@[simp] theorem beginTransactions_nextRamp (s : State) :
    (beginTransactions s).nextRamp = s.nextRamp := by
  have h := congrArg State.nextRamp (beginTransactions_rest s)
  exact h

@[simp] theorem beginTransactions_resetCause (s : State) :
    (beginTransactions s).resetCause = s.resetCause := by
  have h := congrArg State.resetCause (beginTransactions_rest s)
  exact h

@[simp] theorem beginTransactions_freeIndex (s : State) :
    (beginTransactions s).freeIndex = s.freeIndex := by
  have h := congrArg State.freeIndex (beginTransactions_rest s)
  exact h

@[simp] theorem beginTransactions_firePins (s : State) :
    (beginTransactions s).firePins = s.firePins := by
  have h := congrArg State.firePins (beginTransactions_rest s)
  exact h

@[simp] theorem beginTransactions_meters (s : State) :
    (beginTransactions s).meters = s.meters := by
  have h := congrArg State.meters (beginTransactions_rest s)
  exact h

@[simp] theorem beginTransactions_active (s : State) :
    (beginTransactions s).active = s.active := by
  have h := congrArg State.active (beginTransactions_rest s)
  exact h

@[simp] theorem beginTransactions_edits (s : State) : (beginTransactions s).edits = s.edits := by
  have h := congrArg State.edits (beginTransactions_rest s)
  exact h

@[simp] theorem beginTransactions_base (s : State) : (beginTransactions s).base = s.base := by
  have h := congrArg State.base (beginTransactions_rest s)
  exact h

@[simp] theorem beginTransactions_evals (s : State) : (beginTransactions s).evals = s.evals := by
  have h := congrArg State.evals (beginTransactions_rest s)
  exact h

@[simp] theorem beginTransactions_selectors (s : State) :
    (beginTransactions s).selectors = s.selectors := by
  have h := congrArg State.selectors (beginTransactions_rest s)
  exact h

@[simp] theorem beginTransactions_arbiters (s : State) :
    (beginTransactions s).arbiters = s.arbiters := by
  have h := congrArg State.arbiters (beginTransactions_rest s)
  exact h

@[simp] theorem beginTransactions_claimCounter (s : State) :
    (beginTransactions s).claimCounter = s.claimCounter := by
  have h := congrArg State.claimCounter (beginTransactions_rest s)
  exact h

@[simp] theorem beginTransactions_zones (s : State) : (beginTransactions s).zones = s.zones := by
  have h := congrArg State.zones (beginTransactions_rest s)
  exact h

@[simp] theorem beginTransactions_channels (s : State) :
    (beginTransactions s).channels = s.channels := by
  have h := congrArg State.channels (beginTransactions_rest s)
  exact h

@[simp] theorem beginTransactions_trips (s : State) : (beginTransactions s).trips = s.trips := by
  have h := congrArg State.trips (beginTransactions_rest s)
  exact h

@[simp] theorem beginTransactions_image (s : State) : (beginTransactions s).image = s.image := by
  have h := congrArg State.image (beginTransactions_rest s)
  exact h

@[simp] theorem beginTransactions_storing (s : State) :
    (beginTransactions s).storing = s.storing := by
  have h := congrArg State.storing (beginTransactions_rest s)
  exact h

@[simp] theorem beginTransactions_ports (s : State) : (beginTransactions s).ports = s.ports := by
  have h := congrArg State.ports (beginTransactions_rest s)
  exact h

@[simp] theorem beginTransactions_queues (s : State) :
    (beginTransactions s).queues = s.queues := by
  have h := congrArg State.queues (beginTransactions_rest s)
  exact h

@[simp] theorem beginTransactions_pending (s : State) :
    (beginTransactions s).pending = s.pending := by
  have h := congrArg State.pending (beginTransactions_rest s)
  exact h

end Sys2Proof.Machine
end

