-- ==== Sys2Proof/Laws/Commands.lean ====
section
/-! SUPPORT. What a command can do, said once: a property of the state that the single writes below keep
is kept by every command and every step. An invariant is proved by proving these writes. -/

namespace Sys2Proof.Machine

/-- The single writes that commands are made of, but for those of Trip Units and of active sets. -/
structure KeptByWrites (P : State → Prop) : Prop where
  post : KeptByPosts P
  port : ∀ seat x s, P s → P (s.setPort seat x)
  mask : ∀ seat m s, P s → P (s.setQueue seat { s.queue seat with mask := m })
  pop : ∀ seat s, P s → P (s.setQueue seat (s.queue seat).pop)
  /-- A meter's ring stays, is emptied, or takes one reading by `joinRing`. -/
  meter : ∀ m x s,
    (x.ring = (s.meter m).ring ∨ x.ring = [] ∨ (∃ r, x.ring = joinRing (s.meter m).ring r) ∨
      ∃ r, x.ring = joinRing [] r) → P s → P (s.setMeter m x)
  eval : ∀ p x s, P s → P (s.setEval p x)
  base : ∀ p s, s.baseOf p = .starting → P s → P (s.setBase p .running)
  selector : ∀ p x s, P s → P (s.setSelector p x)
  arbiter : ∀ p x s, x.claims = (s.arbiter p).claims → P s → P (s.setArbiter p x)
  remove : ∀ p keep s, P s → P (setClaims p ((s.arbiter p).claims.filter keep) s)
  push : ∀ seat h q s, (∀ p ∈ h.portals, (s.arbiter p).countOf seat < 4) → P s →
    P (acceptPush seat h q s)
  zone : ∀ p z x s, P s → P (s.setZone p z x)
  channel : ∀ c x s, P s → P (s.setChannel c x)
  tx : ∀ n x s, P s → P (s.setLine n { s.lampLine n with tx := x })
  departed : ∀ n d s, P s → P (s.setLine n { s.lampLine n with departed := d })
  /-- A station's miss count is 0 or 3, or one more than a count that was not 3. -/
  station : ∀ n a st s,
    (st.misses = 0 ∨ st.misses = 3 ∨ ∃ old, rd (s.lampLine n).stations a = some old ∧
      old.misses ≠ 3 ∧ st.misses = old.misses + 1) → P s →
    P (s.setLine n { s.lampLine n with stations := wr (s.lampLine n).stations a (some st) })
  enter : ∀ n a level c s, P s → P (s.setLine n ((s.lampLine n).enter a level c))
  begin : ∀ n s, P s → P (s.setLine n ((s.lampLine n).begin s.now))
  grant : ∀ seat p s, P s → P (giveGrant seat p s)
  ungrant : ∀ p s, P s → P (endGrant p s)
  shadow : ∀ p old new s, (s.edit p).shadow = some old → P s →
    P (s.setEdit p { s.edit p with shadow := some new })
  pending : ∀ seat p s, P s → P (makePending seat p s)
  discard : ∀ p s, P s → P (discardOne p s)
  store : ∀ image storing s, P s → P { s with image := image, storing := storing }
  free : ∀ n s, P s → P { s with freeIndex := n }
  clock : ∀ now next s, P s → P { s with now := now, nextRamp := next }
  powerUp : ∀ cause s, P s → P (powerUp cause s)
  restart : ∀ s, P s → P (restartPart s)

/-- Kept by the operations that write Trip Units and active sets, too: an invariant that ties a Trip
Unit to other state holds only after the whole of each of them. -/
structure KeptByParts (P : State → Prop) : Prop extends KeptByWrites P where
  test : ∀ n s, P s → P (testLine n s)
  fire : ∀ p v level s, P s →
    P (({ s with firePins := v } : State).setTrip p ((s.tripUnit p).change level s.now))
  settle : ∀ p s, P s →
    P (recompute p (latchFire p (postAll (.fireInput p (s.tripUnit p).fireLevel) (s.setTrip p
      { s.tripUnit p with debounced := (s.tripUnit p).fireLevel, debounce := none }))))
  order : ∀ seat reason p s, P s → P (orderTrip seat reason p s)
  reset : ∀ fire order p s, P s → P (resetTrip fire order p s)
  adopt : ∀ p x s, (s.edit p).pendingSet = some x → P s → P (adopt p x s)

/-- Kept by the single writes of Trip Units and of active sets, too. -/
structure KeptByCommands (P : State → Prop) : Prop extends KeptByWrites P where
  freezes : ∀ p s, P s → P (rewriteFreezes p s)
  trip : ∀ p x s, P s → P (s.setTrip p x)
  pins : ∀ v s, P s → P { s with firePins := v }
  down : ∀ n b s, P s → P (s.setLine n { s.lampLine n with down := b })
  leave : ∀ n a c replaced s, P s → P (s.setLine n ((s.lampLine n).leave a c replaced))
  join : ∀ n a c b s, P s →
    P (s.setLine n (((s.lampLine n).station a c b).enter a 0 c))
  refresh : ∀ p s, P s → P (refreshShadow p s)
  activate : ∀ p x s, (s.edit p).pendingSet = some x → P s → P (activate p x.set s)

/-- The circuits that a portal's own commands write. -/
def atPortal (p : Fin 4) (k : Circuit) : Prop := k.portal = p

/-- A RESTART, once the resets of the blocks are made, writes zones, channels and levels that enter. -/
theorem restartPortal_keeps {P : State → Prop} {p : Fin 4} {C : Circuit → Prop}
    (h : KeptByLight p C P) (s : State) (hs : P s) : P (restartPortal p s) := by
  have zone (z : Fin 5) (s : State) (hs : P s) : P (restartZone p z s) := by
    unfold restartZone
    split
    · exact hs
    · dsimp only
      split
      · exact h.zone _ _ _ hs
      · exact plan_keeps h _ _ _ hs
  have hz : P (forEach allZones (restartZone p) s) := forEach_keeps (fun z _ s hs => zone z s hs) s hs
  unfold restartPortal
  have cs := h.scope s hs
  generalize forEach allZones (restartZone p) s = u at hz ⊢
  generalize s.circuits p = ks at cs ⊢
  refine forEach_keeps (fun k hk s hs => ?_) _ hz
  unfold restartLoose
  split
  · exact driveSwitched_keeps h k (cs k hk) _ (giveTarget_keeps h k (cs k hk) _ _ hs)
  · exact hs

variable {P : State → Prop}

theorem KeptByWrites.light (h : KeptByWrites P) (p : Fin 4) : KeptByLight p (atPortal p) P where
  place := fun _ hk => hk
  scope := fun _ _ _ hk => circuit_portal hk
  zone := h.zone p
  channel := fun _ x s _ hs => h.channel _ x s hs
  enter := fun _ _ _ _ hs => h.enter _ _ _ _ _ hs

theorem KeptByWrites.source (h : KeptByWrites P) (p : Fin 4) : KeptBySource p (atPortal p) P where
  toKeptByLight := h.light p
  post := h.post
  selector := h.selector p
  arbiter := h.arbiter p
  eval := h.eval p
  base := h.base p

section Parts

variable (h : KeptByParts P)
include h

theorem KeptByParts.replies (p : Fin 4) : KeptByReplies p (atPortal p) P where
  toKeptByLight := h.toKeptByWrites.light p
  post := h.post
  test := h.test p
  tx := h.tx p none
  departed := h.departed p
  station := h.station p

/-! ### The outcomes of a step -/

omit h in
/-- A property of every next state that an outcome can be. -/
def Keeps (P : State → Prop) (x : Host.Outcome State Fault Refusal) : Prop := ∀ t, x = .next t → P t

omit h in
theorem keeps_next {s : State} (hs : P s) : Keeps P (.next s) := by
  intro t ht
  cases ht
  exact hs

theorem keeps_done {s : State} (hs : P s) : Keeps P (done s) :=
  keeps_next (beginTransactions_keeps h.begin s hs)

theorem endCommand_keeps (seat : Seat) (code : ResultCode) (value : Nat) (w : Condition) (s : State)
    (hs : P s) : P (endCommand seat code value w s) := h.port _ _ _ hs

theorem refuse_keeps (seat : Seat) (code : ResultCode) (value : Nat) (s : State) (hs : P s) :
    P (refuse seat code value s) := h.port _ _ _ hs

theorem accept_keeps (seat : Seat) (value : Nat) (c l d : Bool) (s : State) (hs : P s) :
    P (accept seat value c l d s) := h.port _ _ _ hs

omit h in
theorem inHeader_keeps (seat : Seat) (run : State → State) (s : State) (hs : P s)
    (hr : ∀ s, P s → P (run s)) : P (inHeader seat s run) := by
  unfold inHeader
  split
  · exact hr _ hs
  · exact hs

omit h in
theorem withRecord_keeps (seat : Seat) (n : Nat) (bytes : List Byte) (run : State → State) (s : State)
    (hs : P s) (hr : ∀ s, P s → P (run s)) : P (withRecord seat n bytes s run) := by
  unfold withRecord
  split
  · exact inHeader_keeps _ _ _ hs hr
  · exact hs

/-! ### Claims -/

theorem removeAt_keeps (p : Fin 4) (gone : Claim → Bool) (tell : Claim → State → State)
    (ht : ∀ c s, P s → P (tell c s)) (s : State) (hs : P s) : P (removeClaims p gone tell s) :=
  removeClaims_keeps (h.toKeptByWrites.source p) gone tell ht (fun s hs => h.remove p _ s hs) s hs

theorem removeNumber_keeps (n : Nat) (tell : Fin 4 → Claim → State → State)
    (ht : ∀ p c s, P s → P (tell p c s)) (s : State) (hs : P s) : P (removeNumber n tell s) :=
  forEach_keeps (fun p _ s hs => removeAt_keeps h p _ _ (ht p) s hs) s hs

theorem pushClaimCommand_keeps (seat : Seat) (hd : Header) (bytes : List Byte) (s : State) (hs : P s) :
    P (pushClaimCommand seat hd bytes s) := by
  unfold pushClaimCommand
  split
  · exact refuse_keeps h _ _ _ _ hs
  · split
    · exact refuse_keeps h _ _ _ _ hs
    · split
      · exact refuse_keeps h _ _ _ _ hs
      · split
        · exact refuse_keeps h _ _ _ _ hs
        · split
          · exact refuse_keeps h _ _ _ _ hs
          · next hq =>
            refine h.push _ _ _ _ ?_ hs
            intro p hp
            have := List.find?_eq_none.mp hq p hp
            simpa using this

theorem withdrawCommand_keeps (seat : Seat) (hd : Header) (n : Nat) (s : State) (hs : P s) :
    P (withdrawCommand seat hd n s) := by
  unfold withdrawCommand
  split
  · exact refuse_keeps h _ _ _ _ hs
  · split
    · exact refuse_keeps h _ _ _ _ hs
    · split
      · exact refuse_keeps h _ _ _ _ hs
      · exact accept_keeps h _ _ _ _ _ _ (removeNumber_keeps h _ _ (fun _ _ _ hs => hs) _ hs)

theorem withdrawAnyCommand_keeps (seat : Seat) (hd : Header) (n : Nat) (s : State) (hs : P s) :
    P (withdrawAnyCommand seat hd n s) := by
  have told (p : Fin 4) (c : Claim) (s : State) (hs : P s) : P (tellWithdrawn p c s) := by
    unfold tellWithdrawn
    split
    · exact hs
    · exact h.post _ _ _ (by simp [Event.kind]) hs
  unfold withdrawAnyCommand
  split
  · exact refuse_keeps h _ _ _ _ hs
  · split
    · exact refuse_keeps h _ _ _ _ hs
    · exact accept_keeps h _ _ _ _ _ _ (removeNumber_keeps h _ _ told _ hs)

theorem silenceClaims_keeps (seat : Seat) (s : State) (hs : P s) : P (silenceClaims seat s) :=
  forEach_keeps
    (fun p _ s hs => removeAt_keeps h p _ _
      (fun _ _ hs => h.post _ _ _ (by simp [Event.kind]) hs) s hs) s hs

/-! ### Channels -/

theorem testZoneOf_keeps (k : Circuit) (s : State) (hs : P s) : P (testZone k s) :=
  testZone_keeps (h.toKeptByWrites.light k.portal) k rfl s hs

theorem channelCommand_keeps (seat : Seat) (hd : Header) (bytes : List Byte)
    (run : Circuit → State → State) (hr : ∀ k s, P s → P (run k s)) (s : State) (hs : P s) :
    P (channelCommand seat hd bytes run s) := by
  unfold channelCommand
  split
  · exact refuse_keeps h _ _ _ _ hs
  · split
    · exact refuse_keeps h _ _ _ _ hs
    · exact hr _ _ hs

theorem takeChannelCommand_keeps (seat : Seat) (k : Circuit) (s : State) (hs : P s) :
    P (takeChannelCommand seat k s) := by
  unfold takeChannelCommand
  split
  · split
    · exact accept_keeps h _ _ _ _ _ _ hs
    · exact refuse_keeps h _ _ _ _ hs
  · exact accept_keeps h _ _ _ _ _ _ (testZoneOf_keeps h _ _ (h.channel _ _ _ hs))

theorem inHand_keeps (seat : Seat) (k : Circuit) (run : Hand → State → State)
    (hr : ∀ x s, P s → P (run x s)) (s : State) (hs : P s) : P (inHand seat k run s) := by
  unfold inHand
  split
  · exact refuse_keeps h _ _ _ _ hs
  · split
    · exact hr _ _ hs
    · exact refuse_keeps h _ _ _ _ hs

theorem setHandLevel_keeps (k : Circuit) (x : Hand) (level : Nat) (s : State) (hs : P s) :
    P (setHandLevel k x level s) := by
  unfold setHandLevel
  dsimp only
  split
  · exact h.channel _ _ _ hs
  · exact command_keeps (h.toKeptByWrites.light k.portal) k rfl _ _ (h.channel _ _ _ hs)

theorem setChannelCommand_keeps (seat : Seat) (level : Nat) (k : Circuit) (s : State) (hs : P s) :
    P (setChannelCommand seat level k s) := by
  apply inHand_keeps h _ _ _ _ _ hs
  intro x s hs
  split
  · exact accept_keeps h _ _ _ _ _ _ (setHandLevel_keeps h _ _ _ _ hs)
  · exact refuse_keeps h _ _ _ _ hs

theorem releaseHand_keeps (k : Circuit) (seat : Seat) (cause : ReleaseCause) (s : State) (hs : P s) :
    P (releaseHand k seat cause s) :=
  h.post _ _ _ (by simp [Event.kind]) (returnToAuto_keeps (h.toKeptByWrites.light k.portal) k rfl _ hs)

theorem releaseChannelCommand_keeps (seat : Seat) (k : Circuit) (s : State) (hs : P s) :
    P (releaseChannelCommand seat k s) :=
  inHand_keeps h _ _ _
    (fun _ _ hs => accept_keeps h _ _ _ _ _ _ (releaseHand_keeps h _ _ _ _ hs)) _ hs

theorem silenceChannels_keeps (seat : Seat) (s : State) (hs : P s) : P (silenceChannels seat s) := by
  apply forEach_keeps _ _ hs
  intro c _ s hs
  unfold silenceChannel
  split
  · split
    · exact releaseHand_keeps h _ _ _ _ hs
    · exact hs
  · exact hs

theorem rampChannel_keeps (c : Fin 32) (s : State) (hs : P s) : P (rampChannel c s) := by
  unfold rampChannel
  split
  · exact hs
  · next k _ =>
    dsimp only
    split
    · split
      · exact hs
      · have stepped (level : Nat) : P (command k level s) :=
          command_keeps (h.toKeptByWrites.light k.portal) k rfl _ _ hs
        split
        · exact testZoneOf_keeps h _ _ (stepped _)
        · exact stepped _
    · exact hs

/-! ### Grants and sets -/

theorem silenceGrants_keeps (seat : Seat) (s : State) (hs : P s) : P (silenceGrants seat s) := by
  apply forEach_keeps _ _ hs
  intro p _ s hs
  split
  · exact h.post _ _ _ (by simp [Event.kind]) (h.ungrant _ _ hs)
  · exact hs

theorem takeGrantCommand_keeps (seat : Seat) (hd : Header) (s : State) (hs : P s) :
    P (takeGrantCommand seat hd s) := by
  unfold takeGrantCommand
  split
  · exact refuse_keeps h _ _ _ _ hs
  · split
    · exact refuse_keeps h _ _ _ _ hs
    · exact accept_keeps h _ _ _ _ _ _ (forEach_keeps (fun p _ s hs => h.grant _ _ _ hs) _ hs)

theorem seize_keeps (p : Fin 4) (s : State) (hs : P s) : P (seize p s) := by
  unfold seize
  split
  · exact h.grant _ _ _ hs
  · exact hs
  · exact h.post _ _ _ (by simp [Event.kind]) (h.grant _ _ _ hs)

theorem seizeGrantCommand_keeps (seat : Seat) (hd : Header) (s : State) (hs : P s) :
    P (seizeGrantCommand seat hd s) := by
  unfold seizeGrantCommand
  split
  · exact refuse_keeps h _ _ _ _ hs
  · split
    · exact refuse_keeps h _ _ _ _ hs
    · exact accept_keeps h _ _ _ _ _ _ (forEach_keeps (fun p _ s hs => seize_keeps h p s hs) _ hs)

theorem releaseGrantCommand_keeps (seat : Seat) (hd : Header) (s : State) (hs : P s) :
    P (releaseGrantCommand seat hd s) := by
  unfold releaseGrantCommand
  split
  · exact refuse_keeps h _ _ _ _ hs
  · split
    · exact refuse_keeps h _ _ _ _ hs
    · exact accept_keeps h _ _ _ _ _ _ (forEach_keeps (fun p _ s hs => h.ungrant _ _ hs) _ hs)

theorem applyRecord_keeps {seat : Seat} {x : Transfer} {bytes : List Byte} {s t : State} (hs : P s)
    (ht : applyRecord seat x bytes s = .ok t) : P t := by
  unfold applyRecord at ht
  dsimp only at ht
  split at ht
  · cases ht
  · next shadow hsh =>
    split at ht
    · cases ht
    · split at ht
      · cases ht
      · split at ht
        · cases ht
        · cases ht
          exact h.shadow _ _ _ _ hsh hs

theorem writeOne_keeps (seat : Seat) (x : Transfer) (bytes : List Byte) (s : State) (hs : P s) :
    P (writeOne seat x bytes s) := by
  unfold writeOne
  split
  · split
    · exact h.port _ _ _ hs
    · next after ht =>
      have ha := applyRecord_keeps h hs ht
      split
      · exact h.port _ _ _ ha
      · split
        · exact h.port _ _ _ ha
        · split
          · exact h.port _ _ _ ha
          · exact h.port _ _ _ ha
  · exact hs

theorem writeCommand_keeps (seat : Seat) (hd : Header) (bytes : List Byte) (s : State) (hs : P s) :
    P (writeCommand seat hd bytes s) := by
  unfold writeCommand
  split
  · exact refuse_keeps h _ _ _ _ hs
  · exact writeOne_keeps h _ _ _ _ hs

theorem adoptIfReady_keeps (p : Fin 4) (s : State) (hs : P s) : P (adoptIfReady p s) := by
  unfold adoptIfReady
  split
  · exact hs
  · next x hx =>
    split
    · exact h.adopt p x s hx hs
    · exact hs

theorem commitCommand_keeps (seat : Seat) (hd : Header) (s : State) (hs : P s) :
    P (commitCommand seat hd s) := by
  unfold commitCommand
  split
  · exact h.port _ _ _ hs
  · split
    · exact h.port _ _ _ hs
    · split
      · exact h.port _ _ _ hs
      · split
        · exact h.port _ _ _ hs
        · split
          · exact h.port _ _ _ hs
          · exact accept_keeps h _ _ _ _ _ _
              (forEach_keeps (fun p _ s hs => adoptIfReady_keeps h p s hs) _
                (forEach_keeps (fun p _ s hs => h.pending _ _ _ hs) _ hs))

theorem discardCommand_keeps (seat : Seat) (hd : Header) (s : State) (hs : P s) :
    P (discardCommand seat hd s) := by
  unfold discardCommand
  split
  · exact refuse_keeps h _ _ _ _ hs
  · split
    · exact refuse_keeps h _ _ _ _ hs
    · exact accept_keeps h _ _ _ _ _ _ (forEach_keeps (fun p _ s hs => h.discard _ _ hs) _ hs)

theorem storeCommand_keeps (seat : Seat) (s : State) (hs : P s) : P (storeCommand seat s) := by
  unfold storeCommand
  split
  · exact refuse_keeps h _ _ _ _ hs
  · split
    · exact refuse_keeps h _ _ _ _ hs
    · exact accept_keeps h _ _ _ _ _ _ (h.store _ _ _ hs)

/-! ### Seat ports -/

theorem readCommand_keeps (seat : Seat) (hd : Header) (s : State) (hs : P s) :
    P (readCommand seat hd s) := by
  unfold readCommand
  split
  · exact h.port _ _ _ hs
  · exact h.port _ _ _ hs

theorem startRecord_keeps (seat : Seat) (x : Transfer) (s : State) (hs : P s) :
    P (startRecord seat x s) := by
  unfold startRecord
  dsimp only
  split
  · exact h.port _ _ _ hs
  · exact h.port _ _ _ (h.free _ _ hs)

theorem deliverRecord_keeps (seat : Seat) (x : Transfer) (s : State) (hs : P s) :
    P (deliverRecord seat x s) := by
  have popped : P (popDelivered seat x s) := by
    unfold popDelivered
    split
    · exact h.pop _ _ hs
    · exact hs
  unfold deliverRecord
  dsimp only
  split
  · exact h.port _ _ _ popped
  · split
    · exact h.port _ _ _ popped
    · split
      · exact h.port _ _ _ popped
      · exact h.port _ _ _ popped

theorem silence_keeps (seat : Seat) (s : State) (hs : P s) : P (silence seat s) :=
  silenceGrants_keeps h _ _ (silenceChannels_keeps h _ _ (silenceClaims_keeps h _ _
    (postOthers_keeps h.post _ _ (by simp [Event.kind]) _ (h.port _ _ _ hs))))

theorem passDeadline_keeps (seat : Seat) (s : State) (hs : P s) : P (passDeadline seat s) := by
  unfold passDeadline
  split
  · exact h.port _ _ _ hs
  · exact silence_keeps h _ _ hs

theorem setSeatCommand_keeps (seat : Seat) (hd : Header) (timeout mask : Nat) (s : State) (hs : P s) :
    P (setSeatCommand seat hd timeout mask s) := by
  have set : P (setSeatValues seat timeout mask s) := h.mask _ _ _ (h.port _ _ _ hs)
  unfold setSeatCommand
  split
  · exact refuse_keeps h _ _ _ _ hs
  · split
    · exact refuse_keeps h _ _ _ _ hs
    · apply accept_keeps h
      split
      · exact passDeadline_keeps h _ _ set
      · exact set

theorem leaveFrame_keeps (seat : Seat) (complete : Bool) (s : State) (hs : P s) :
    P (leaveFrame seat complete s) := by
  apply h.port
  split
  · unfold completeFrame
    dsimp only
    split
    · exact postOthers_keeps h.post _ _ (by simp [Event.kind]) _ (h.port _ _ _ hs)
    · exact h.port _ _ _ hs
  · exact hs

theorem endFrame_keeps (seat : Seat) (cut : Cut) (s : State) (hs : P s) : P (endFrame seat cut s) := by
  unfold endFrame
  split
  · exact hs
  · unfold endInHeader
    split
    · exact leaveFrame_keeps h _ _ _ hs
    · exact leaveFrame_keeps h _ _ _ (h.port _ _ _ hs)
    · split
      · exact leaveFrame_keeps h _ _ _ (h.port _ _ _ hs)
      · exact leaveFrame_keeps h _ _ _ (h.port _ _ _ hs)
  · exact leaveFrame_keeps h _ _ _ (h.port _ _ _ hs)
  · exact leaveFrame_keeps h _ _ _ (h.port _ _ _ hs)
  · exact leaveFrame_keeps h _ _ _ hs

/-! ### Trips -/

theorem tripCommand_keeps (seat : Seat) (hd : Header) (reason : Nat) (s : State) (hs : P s) :
    P (tripCommand seat hd reason s) := by
  unfold tripCommand
  split
  · exact refuse_keeps h _ _ _ _ hs
  · split
    · exact refuse_keeps h _ _ _ _ hs
    · split
      · exact refuse_keeps h _ _ _ _ hs
      · exact accept_keeps h _ _ _ _ _ _ (forEach_keeps
          (fun p _ s hs => h.order _ _ p s hs) _ hs)

theorem tripResetCommand_keeps (seat : Seat) (hd : Header) (fire order : Bool) (s : State) (hs : P s) :
    P (tripResetCommand seat hd fire order s) := by
  unfold tripResetCommand
  split
  · exact refuse_keeps h _ _ _ _ hs
  · split
    · exact refuse_keeps h _ _ _ _ hs
    · split
      · exact refuse_keeps h _ _ _ _ hs
      · split
        · exact refuse_keeps h _ _ _ _ hs
        · split
          · exact accept_keeps h _ _ _ _ _ _ (forEach_keeps
              (fun p _ s hs => h.reset _ _ p s hs) _ hs)
          · exact refuse_keeps h _ _ _ _ hs

/-! ### Commands and steps -/

theorem takeReading_keeps (m : Fin 8) (f : ReadingFrame) (s : State) (hs : P s) :
    P (takeReading m f s) := by
  unfold takeReading
  split
  · exact hs
  · next p _ =>
    dsimp only
    split
    · exact hs
    · refine beginTransactions_keeps h.begin _
        (handleReading_keeps (h.toKeptByWrites.source p) m f ?_ s hs)
      intro x s hx
      exact h.meter m x s (hx.elim Or.inl fun e => Or.inr (Or.inr e))

theorem execReading_keeps (m : Fin 8) (burst : Burst) (s : State) (hs : P s) :
    Keeps P (execReadingFrame m burst s) := by
  unfold execReadingFrame
  split
  · exact keeps_next hs
  · exact keeps_next (takeReading_keeps h m _ s hs)

theorem execStale_keeps (m : Fin 8) (s : State) (hs : P s) : Keeps P (execStaleDeadline m s) := by
  have hexp (x : Meter) : x.expire.ring = x.ring ∨ x.expire.ring = [] := by
    unfold Meter.expire
    split
    · exact Or.inr rfl
    · exact Or.inl rfl
    · exact Or.inl rfl
  unfold execStaleDeadline
  dsimp only
  split
  · exact keeps_next hs
  · next p _ =>
    split
    · have expired : P (changeMeter m p .timeout (s.meter m).expire s) :=
        changeMeter_keeps h.post _ _ _ _ _
          (h.meter _ _ _ ((hexp _).elim Or.inl fun e => Or.inr (Or.inl e)) hs)
      split
      · exact keeps_done h (meterLeftValid_keeps (h.toKeptByWrites.source p) _ _ expired)
      · exact keeps_next expired
    · exact keeps_next hs

theorem execReadRecord_keeps (seat : Seat) (phase : RecordPhase) (s : State) (hs : P s) :
    Keeps P (execReadRecord seat phase s) := by
  unfold execReadRecord
  split
  · exact keeps_next (startRecord_keeps h _ _ _ hs)
  · exact keeps_next (deliverRecord_keeps h _ _ _ (startRecord_keeps h _ _ _ hs))
  · exact keeps_next (deliverRecord_keeps h _ _ _ hs)
  · exact keeps_next hs

theorem execHoldTimer_keeps (p : Fin 4) (s : State) (hs : P s) : Keeps P (execHoldTimerExpiry p s) := by
  unfold execHoldTimerExpiry
  split
  · dsimp only
    split
    · exact keeps_done h (evaluate_keeps (h.toKeptByWrites.source p) _ (h.eval _ _ _ hs))
    · exact keeps_next (h.eval _ _ _ hs)
  · exact keeps_next hs

theorem execMismatch_keeps (p : Fin 4) (s : State) (hs : P s) : Keeps P (execMismatch p s) := by
  unfold execMismatch
  split
  · split
    · exact keeps_next (h.eval _ _ _ (postAll_keeps h.post _ (by simp [Event.kind]) _ hs))
    · exact keeps_next hs
  · exact keeps_next hs

theorem execDwell_keeps (p : Fin 4) (s : State) (hs : P s) : Keeps P (execDwellExpiry p s) := by
  unfold execDwellExpiry
  dsimp only
  split
  · split
    · exact keeps_done h (downward_keeps (h.toKeptByWrites.source p).toKeptByStage _ (h.selector _ _ _ hs))
    · exact keeps_next (h.selector _ _ _ hs)
  · exact keeps_next hs

theorem execZoneTimers_keeps (p : Fin 4) (z : Fin 5) (s : State) (hs : P s) :
    Keeps P (execOverlapOnExpiry p z s) ∧ Keeps P (execOverlapOffExpiry p z s) ∧
      Keeps P (execConfirmTimeout p z s) := by
  refine ⟨?_, ?_, ?_⟩
  · unfold execOverlapOnExpiry
    split
    · exact keeps_next hs
    · split
      · exact keeps_done h (plan_keeps (h.toKeptByWrites.light p) _ _ _ hs)
      · exact keeps_next hs
  · unfold execOverlapOffExpiry
    split
    · exact keeps_next hs
    · split
      · exact keeps_done h (plan_keeps (h.toKeptByWrites.light p) _ _ _ hs)
      · exact keeps_next hs
  · unfold execConfirmTimeout
    split
    · exact keeps_next hs
    · split
      · exact keeps_done h (degrade_keeps (h.toKeptByWrites.light p) h.post _ _ _ hs)
      · exact keeps_next hs

theorem execFire_keeps (p : Fin 4) (high : Bool) (s : State) (hs : P s) :
    Keeps P (execFireInputChange p high s) ∧ Keeps P (execDebounceExpiry p s) := by
  constructor
  · unfold execFireInputChange
    split
    · exact keeps_next hs
    · exact keeps_next (h.fire p _ _ s hs)
  · unfold execDebounceExpiry
    dsimp only
    split
    · exact keeps_done h (h.settle _ _ hs)
    · exact keeps_next hs

theorem takeReply_keeps (n : Fin 4) (f : StatusFrame) (s : State) (hs : P s) :
    P (takeReply n f s) := by
  unfold takeReply
  split
  · exact hs
  · split
    · exact hs
    · split
      · exact beginTransactions_keeps h.begin _ (endTransaction_keeps (h.replies n) _ _
          (fun k t s hk _ hs => replyActs_keeps (h.replies n) k hk t _ s hs)
          (fun c s _ _ hs => h.channel c _ s hs) _ hs)
      · exact hs

theorem hear_keeps (n : Fin 4) (s : State) (hs : P s) : P (hear n s) := by
  unfold hear
  split
  · exact hs
  · split
    · exact hs
    · exact h.tx _ _ _ hs

theorem execLine_keeps (n : Fin 4) (burst : Burst) (s : State) (hs : P s) :
    Keeps P (execFrameSent n s) ∧ Keeps P (execStatusReply n burst s) ∧
      Keeps P (execReplyWindowExpiry n s) := by
  refine ⟨?_, ?_, ?_⟩
  · unfold execFrameSent
    dsimp only
    split
    · exact keeps_next hs
    · split
      · exact keeps_next (h.tx _ _ _ hs)
      · exact keeps_next hs
  · have heard : P (if burst.bytes = [] then s else hear n s) := by
      split
      · exact hs
      · exact hear_keeps h n s hs
    unfold execStatusReply
    dsimp only
    split
    · exact keeps_next heard
    · exact keeps_next (takeReply_keeps h n _ _ heard)
  · unfold execReplyWindowExpiry
    split
    · exact keeps_next hs
    · split
      · exact keeps_next hs
      · split
        · exact keeps_done h (endTransaction_keeps (h.replies n) _ _
            (fun k t s hk ht hs => missActs_keeps (h.replies n) k hk t _ s ht hs)
            (fun c s _ _ hs => h.channel c _ s hs) _ hs)
        · exact keeps_next hs

/-- What the single writes keep, every command keeps. -/
theorem exec_keeps (i : Instr) (s : State) (hs : P s) : Keeps P (exec i s) := by
  cases i with
  | powerOn => exact keeps_done h (h.powerUp _ _ hs)
  | resetLine => exact keeps_done h (h.powerUp _ _ hs)
  | frameBegin seat =>
    change Keeps P (execFrameBegin seat s)
    unfold execFrameBegin
    dsimp only
    split
    · exact keeps_next (h.port _ _ _ hs)
    · exact keeps_next hs
  | badCommand seat code =>
    change Keeps P (execBadCommand seat code s)
    unfold execBadCommand
    split
    · exact keeps_next hs
    · exact keeps_next (inHeader_keeps _ _ _ hs fun s hs => h.port _ _ _ hs)
  | nop seat => exact keeps_next (inHeader_keeps _ _ _ hs fun s hs => h.port _ _ _ hs)
  | read seat hd => exact keeps_next (inHeader_keeps _ _ _ hs (readCommand_keeps h seat hd))
  | readRecord seat phase => exact execReadRecord_keeps h seat phase s hs
  | write seat hd bytes =>
    exact keeps_next (inHeader_keeps _ _ _ hs (writeCommand_keeps h seat hd bytes))
  | writeRecord seat bytes =>
    change Keeps P (execWriteRecord seat bytes s)
    unfold execWriteRecord
    split
    · exact keeps_next (writeOne_keeps h _ _ _ _ hs)
    · exact keeps_next hs
  | pushClaim seat hd bytes =>
    exact keeps_done h (withRecord_keeps _ _ _ _ _ hs (pushClaimCommand_keeps h seat hd bytes))
  | withdraw seat hd bytes =>
    exact keeps_done h (withRecord_keeps _ _ _ _ _ hs (withdrawCommand_keeps h seat hd _))
  | withdrawAny seat hd bytes =>
    change Keeps P (execWithdrawAny seat hd bytes s)
    unfold execWithdrawAny
    split
    · exact keeps_next (inHeader_keeps _ _ _ hs (refuse_keeps h _ _ _))
    · exact keeps_done h (withRecord_keeps _ _ _ _ _ hs (withdrawAnyCommand_keeps h seat hd _))
  | takeChannel seat hd bytes =>
    exact keeps_done h (withRecord_keeps _ _ _ _ _ hs
      (channelCommand_keeps h seat hd bytes _ (takeChannelCommand_keeps h seat)))
  | setChannel seat hd bytes =>
    exact keeps_done h (withRecord_keeps _ _ _ _ _ hs
      (channelCommand_keeps h seat hd bytes _ (setChannelCommand_keeps h seat _)))
  | releaseChannel seat hd bytes =>
    exact keeps_done h (withRecord_keeps _ _ _ _ _ hs
      (channelCommand_keeps h seat hd bytes _ (releaseChannelCommand_keeps h seat)))
  | trip seat hd bytes =>
    exact keeps_done h (withRecord_keeps _ _ _ _ _ hs (tripCommand_keeps h seat hd _))
  | tripReset seat hd bytes =>
    exact keeps_done h (withRecord_keeps _ _ _ _ _ hs (tripResetCommand_keeps h seat hd _ _))
  | takeGrant seat hd => exact keeps_next (inHeader_keeps _ _ _ hs (takeGrantCommand_keeps h seat hd))
  | seizeGrant seat hd =>
    exact keeps_next (inHeader_keeps _ _ _ hs (seizeGrantCommand_keeps h seat hd))
  | releaseGrant seat hd =>
    exact keeps_next (inHeader_keeps _ _ _ hs (releaseGrantCommand_keeps h seat hd))
  | commit seat hd => exact keeps_done h (inHeader_keeps _ _ _ hs (commitCommand_keeps h seat hd))
  | discard seat hd => exact keeps_next (inHeader_keeps _ _ _ hs (discardCommand_keeps h seat hd))
  | store seat => exact keeps_next (inHeader_keeps _ _ _ hs (storeCommand_keeps h seat))
  | setSeat seat hd bytes =>
    exact keeps_done h (withRecord_keeps _ _ _ _ _ hs (setSeatCommand_keeps h seat hd _ _))
  | clearCondition seat => exact keeps_next (inHeader_keeps _ _ _ hs fun s hs => h.port _ _ _ hs)
  | restart seat =>
    change Keeps P (execRestart seat s)
    unfold execRestart
    split
    · exact keeps_next (inHeader_keeps _ _ _ hs (refuse_keeps h _ _ _))
    · exact keeps_done h (inHeader_keeps _ _ _ hs h.restart)
  | frameEnd seat cut => exact keeps_next (endFrame_keeps h _ _ _ hs)
  | seatSilent seat =>
    change Keeps P (execSeatSilent seat s)
    unfold execSeatSilent
    split
    · exact keeps_done h (passDeadline_keeps h _ _ hs)
    · exact keeps_next hs
  | readingFrame m burst => exact execReading_keeps h m burst s hs
  | staleDeadline m => exact execStale_keeps h m s hs
  | holdTimerExpiry p => exact execHoldTimer_keeps h p s hs
  | mismatch p => exact execMismatch_keeps h p s hs
  | dwellExpiry p => exact execDwell_keeps h p s hs
  | claimExpired p n =>
    exact keeps_done h (removeAt_keeps h p _ _
      (fun _ _ hs => h.post _ _ _ (by simp [Event.kind]) hs) _ hs)
  | rampInterval =>
    exact keeps_done h (forEach_keeps (fun c _ s hs => rampChannel_keeps h c s hs) _
      (h.clock _ _ _ hs))
  | overlapOnExpiry p z => exact (execZoneTimers_keeps h p z s hs).1
  | overlapOffExpiry p z => exact (execZoneTimers_keeps h p z s hs).2.1
  | confirmTimeout p z => exact (execZoneTimers_keeps h p z s hs).2.2
  | fireInputChange p high => exact (execFire_keeps h p high s hs).1
  | debounceExpiry p => exact (execFire_keeps h p false s hs).2
  | frameSent n => exact (execLine_keeps h n ⟨false, []⟩ s hs).1
  | statusReply n burst => exact (execLine_keeps h n burst s hs).2.1
  | replyWindowExpiry n => exact (execLine_keeps h n ⟨false, []⟩ s hs).2.2
  | adoption p => exact keeps_done h (adoptIfReady_keeps h p s hs)
  | storeWriteEnd verified =>
    change Keeps P (execStoreWriteEnd verified s)
    unfold execStoreWriteEnd
    split
    · exact keeps_next hs
    · dsimp only
      split
      · exact keeps_next (h.store _ _ _ hs)
      · refine keeps_next (h.post _ _ _ ?_ (h.store _ _ _ hs))
        cases verified <;> simp [Event.kind]

/-- What the single writes and the queue of commands keep, every step keeps. -/
theorem step_keeps (hq : ∀ l s, P s → P { s with pending := l }) (s : State) (hs : P s) :
    Keeps P (step s) := by
  unfold step
  split
  · apply keeps_next
    unfold idle
    split
    · exact hq [_] _ (h.free (s.freeIndex + 1) s hs)
    · exact h.clock (s.now + 1) s.nextRamp s hs
  · exact exec_keeps h _ _ (hq _ _ hs)

end Parts

/-! ### From the single writes -/

section Writes

variable (h : KeptByCommands P)
include h

theorem KeptByCommands.trips (p : Fin 4) : KeptByTrips p (atPortal p) P where
  toKeptByLight := h.toKeptByWrites.light p
  post := h.post
  trip := h.trip p

theorem KeptByCommands.adoption (p : Fin 4) : KeptByAdoption p (atPortal p) P where
  toKeptBySource := h.toKeptByWrites.source p
  meter := fun m x s hx => h.meter m x s (hx.elim Or.inl fun e => Or.inr (Or.inl e))
  freezes := h.freezes p
  test := fun s hs => (testLine_keeps (h.trips p) (h.down p) s hs).1
  leave := fun _ _ _ _ hs => h.leave _ _ _ _ _ hs
  join := fun _ _ _ _ hs => h.join _ _ _ _ _ hs

/-- What the single writes keep, the operations keep. -/
theorem KeptByCommands.parts : KeptByParts P where
  toKeptByWrites := h.toKeptByWrites
  test := fun n s hs => (testLine_keeps (h.trips n) (h.down n) s hs).2
  fire := fun _ _ _ _ hs => h.trip _ _ _ (h.pins _ _ hs)
  settle := fun p s hs =>
    recompute_keeps (h.trips p) _ (latchFire_keeps (h.trips p) _
      (postAll_keeps h.post _ (by simp [Event.kind]) _ (h.trip _ _ _ hs)))
  order := fun _ _ p s hs => orderTrip_keeps (h.trips p) _ _ s hs
  reset := fun _ _ p s hs => resetTrip_keeps (h.trips p) _ _ s hs
  adopt := fun p x s hx hs =>
    adopt_keeps (h.adoption p) x s (fun _ hk => circuit_portal hk) (h.activate p x s hx hs)
      (fun u hu => recompute_keeps (h.trips p) _ (adoptTrip_keeps (h.trips p) _ u hu)) (h.refresh p)

end Writes

end Sys2Proof.Machine
end

