-- ==== Sys2Proof/Laws/Frames.lean ====
section
/-! SUPPORT. What the shared operations of frames do: check sums, received bytes as frames, the
bytes that a seat port shifts out, and the codes that name a command. -/

namespace Sys2Proof.Machine

theorem foldl_add_toNat (l : List Byte) (x : Byte) :
    (l.foldl (· + ·) x).toNat = (x.toNat + (l.map BitVec.toNat).sum) % 256 := by
  induction l generalizing x with
  | nil => simpa using (Nat.mod_eq_of_lt x.isLt).symm
  | cons a l ih =>
    simp only [List.foldl_cons, ih, BitVec.toNat_add, List.map_cons, List.sum_cons]
    omega

/-- The check sum rule as a sum of numbers (R176). -/
theorem sumsToZero_iff (l : List Byte) : sumsToZero l = true ↔ (l.map BitVec.toNat).sum % 256 = 0 := by
  rw [sumsToZero, beq_iff_eq, ← BitVec.toNat_inj, foldl_add_toNat]
  simp

/-- A frame with its check sum holds the check sum rule. -/
theorem sumsToZero_withCheckSum (l : List Byte) : sumsToZero (withCheckSum l) = true := by
  simp [sumsToZero, withCheckSum, checkSum, List.foldl_append]

/-- Received bytes are a frame exactly where R180 says that they begin one. -/
theorem burst_frame_iff {b : Burst} {first : Bool} {l : List Byte} :
    b.frame first = some l ↔ l = b.bytes ∧ b.bytes ≠ [] ∧ (first = true ∨ b.silence = true) := by
  simp only [Burst.frame, Option.ite_none_right_eq_some, Option.some.injEq, Bool.or_eq_true,
    eq_comm (a := b.bytes) (b := l)]
  tauto

/-- The bytes held are shifted out first. -/
theorem shiftedOut_held {x : SeatPort} {n : Nat} {b : Byte} (h : x.out[n]? = some b) :
    x.shiftedOut n = b := by
  simp [SeatPort.shiftedOut, List.getD, h]

/-- Filler follows them (R176). -/
theorem shiftedOut_filler {x : SeatPort} {n : Nat} (h : x.out.length ≤ n) : x.shiftedOut n = 0#8 := by
  simp [SeatPort.shiftedOut, List.getD, List.getElem?_eq_none h, filler]

/-- The codes that name no command are 20 to 255 (R177). -/
theorem namesCommand_unused {code : Byte} (h : 20 ≤ code.toNat) : namesCommand code = false := by
  unfold namesCommand commandOf
  split <;> first | omega | simp

end Sys2Proof.Machine
end

