-- ==== Sys2Proof/Laws/PerInstr.lean ====
section
/-! SUPPORT. One lemma per command of the family Payload: what bytes a well-formed command carries. -/

namespace Sys2Proof.Laws.Payload

/-- The bytes that cross the boundary with a command, beside its header. -/
def bytes : Instr → List Byte
  | .write _ _ b => b
  | .writeRecord _ b => b
  | .pushClaim _ _ b => b
  | .withdraw _ _ b => b
  | .withdrawAny _ _ b => b
  | .takeChannel _ _ b => b
  | .setChannel _ _ b => b
  | .releaseChannel _ _ b => b
  | .trip _ _ b => b
  | .tripReset _ _ b => b
  | .setSeat _ _ b => b
  | .readingFrame _ b => b.bytes
  | .statusReply _ b => b.bytes
  | .powerOn => []
  | .resetLine => []
  | .frameBegin _ => []
  | .badCommand _ _ => []
  | .nop _ => []
  | .read _ _ => []
  | .readRecord _ _ => []
  | .takeGrant _ _ => []
  | .seizeGrant _ _ => []
  | .releaseGrant _ _ => []
  | .commit _ _ => []
  | .discard _ _ => []
  | .store _ => []
  | .clearCondition _ => []
  | .restart _ => []
  | .frameEnd _ _ => []
  | .seatSilent _ => []
  | .staleDeadline _ => []
  | .holdTimerExpiry _ => []
  | .mismatch _ => []
  | .dwellExpiry _ => []
  | .claimExpired _ _ => []
  | .rampInterval => []
  | .overlapOnExpiry _ _ => []
  | .overlapOffExpiry _ _ => []
  | .confirmTimeout _ _ => []
  | .fireInputChange _ _ => []
  | .debounceExpiry _ => []
  | .frameSent _ => []
  | .replyWindowExpiry _ => []
  | .adoption _ => []
  | .storeWriteEnd _ => []

/-- The numbers of bytes that a command's payload may have: those of its record (R178), 0 for a command
without one or refused at its header (R143), any number but 0 for the frames of the outside (R180). -/
def lengths : Instr → List Nat
  | .powerOn => [0]
  | .resetLine => [0]
  | .frameBegin _ => [0]
  | .badCommand _ _ => [0]
  | .nop _ => [0]
  | .read _ _ => [0]
  | .readRecord _ _ => [0]
  | .write _ h _ => [RecordCommand.write.recordBytes h, 0]
  | .writeRecord _ _ => [24, 2, 16, 8]
  | .pushClaim _ _ _ => [8]
  | .withdraw _ _ _ => [2]
  | .withdrawAny seat _ _ => if seat = .L then [2] else [2, 0]
  | .takeChannel _ _ _ => [4]
  | .setChannel _ _ _ => [4]
  | .releaseChannel _ _ _ => [4]
  | .trip _ _ _ => [2]
  | .tripReset _ _ _ => [2]
  | .takeGrant _ _ => [0]
  | .seizeGrant _ _ => [0]
  | .releaseGrant _ _ => [0]
  | .commit _ _ => [0]
  | .discard _ _ => [0]
  | .store _ => [0]
  | .setSeat _ _ _ => [4]
  | .clearCondition _ => [0]
  | .restart _ => [0]
  | .frameEnd _ _ => [0]
  | .seatSilent _ => [0]
  | .readingFrame _ b => if b.bytes = [] then [] else [b.bytes.length]
  | .staleDeadline _ => [0]
  | .holdTimerExpiry _ => [0]
  | .mismatch _ => [0]
  | .dwellExpiry _ => [0]
  | .claimExpired _ _ => [0]
  | .rampInterval => [0]
  | .overlapOnExpiry _ _ => [0]
  | .overlapOffExpiry _ _ => [0]
  | .confirmTimeout _ _ => [0]
  | .fireInputChange _ _ => [0]
  | .debounceExpiry _ => [0]
  | .frameSent _ => [0]
  | .statusReply _ b => if b.bytes = [] then [] else [b.bytes.length]
  | .replyWindowExpiry _ => [0]
  | .adoption _ => [0]
  | .storeWriteEnd _ => [0]

/-- A well-formed command carries a payload of one of its lengths. -/
def Statement (i : Instr) : Prop := i.wellFormed = true → (bytes i).length ∈ lengths i

theorem powerOn :
    Statement (Instr.powerOn) := by
  intro _; simp [bytes, lengths]

theorem resetLine :
    Statement (Instr.resetLine) := by
  intro _; simp [bytes, lengths]

theorem frameBegin (seat : Seat) :
    Statement (Instr.frameBegin seat) := by
  intro _; simp [bytes, lengths]

theorem badCommand (seat : Seat) (code : Byte) :
    Statement (Instr.badCommand seat code) := by
  intro _; simp [bytes, lengths]

theorem nop (seat : Seat) :
    Statement (Instr.nop seat) := by
  intro _; simp [bytes, lengths]

theorem read (seat : Seat) (header : Header) :
    Statement (Instr.read seat header) := by
  intro _; simp [bytes, lengths]

theorem readRecord (seat : Seat) (phase : RecordPhase) :
    Statement (Instr.readRecord seat phase) := by
  intro _; simp [bytes, lengths]

theorem write (seat : Seat) (header : Header) (b : List Byte) :
    Statement (Instr.write seat header b) := by
  intro h
  have h' : b.length = RecordCommand.write.recordBytes header ∨ b = [] := by
    simpa [Instr.wellFormed] using h
  rcases h' with e | e <;> simp [bytes, lengths, e]

theorem writeRecord (seat : Seat) (b : List Byte) :
    Statement (Instr.writeRecord seat b) := by
  intro h
  simpa [bytes, lengths, Instr.wellFormed] using h

theorem pushClaim (seat : Seat) (header : Header) (b : List Byte) :
    Statement (Instr.pushClaim seat header b) := by
  intro h
  simpa [bytes, lengths, Instr.wellFormed] using h

theorem withdraw (seat : Seat) (header : Header) (b : List Byte) :
    Statement (Instr.withdraw seat header b) := by
  intro h
  simpa [bytes, lengths, Instr.wellFormed] using h

theorem withdrawAny (seat : Seat) (header : Header) (b : List Byte) :
    Statement (Instr.withdrawAny seat header b) := by
  intro h
  have h' : b.length = 2 ∨ (seat ≠ .L ∧ b = []) := by simpa [Instr.wellFormed] using h
  rcases h' with e | ⟨n, e⟩
  · simp only [bytes, lengths]; split <;> simp [e]
  · simp [bytes, lengths, n, e]

theorem takeChannel (seat : Seat) (header : Header) (b : List Byte) :
    Statement (Instr.takeChannel seat header b) := by
  intro h
  simpa [bytes, lengths, Instr.wellFormed] using h

theorem setChannel (seat : Seat) (header : Header) (b : List Byte) :
    Statement (Instr.setChannel seat header b) := by
  intro h
  simpa [bytes, lengths, Instr.wellFormed] using h

theorem releaseChannel (seat : Seat) (header : Header) (b : List Byte) :
    Statement (Instr.releaseChannel seat header b) := by
  intro h
  simpa [bytes, lengths, Instr.wellFormed] using h

theorem trip (seat : Seat) (header : Header) (b : List Byte) :
    Statement (Instr.trip seat header b) := by
  intro h
  simpa [bytes, lengths, Instr.wellFormed] using h

theorem tripReset (seat : Seat) (header : Header) (b : List Byte) :
    Statement (Instr.tripReset seat header b) := by
  intro h
  simpa [bytes, lengths, Instr.wellFormed] using h

theorem takeGrant (seat : Seat) (header : Header) :
    Statement (Instr.takeGrant seat header) := by
  intro _; simp [bytes, lengths]

theorem seizeGrant (seat : Seat) (header : Header) :
    Statement (Instr.seizeGrant seat header) := by
  intro _; simp [bytes, lengths]

theorem releaseGrant (seat : Seat) (header : Header) :
    Statement (Instr.releaseGrant seat header) := by
  intro _; simp [bytes, lengths]

theorem commit (seat : Seat) (header : Header) :
    Statement (Instr.commit seat header) := by
  intro _; simp [bytes, lengths]

theorem discard (seat : Seat) (header : Header) :
    Statement (Instr.discard seat header) := by
  intro _; simp [bytes, lengths]

theorem store (seat : Seat) :
    Statement (Instr.store seat) := by
  intro _; simp [bytes, lengths]

theorem setSeat (seat : Seat) (header : Header) (b : List Byte) :
    Statement (Instr.setSeat seat header b) := by
  intro h
  simpa [bytes, lengths, Instr.wellFormed] using h

theorem clearCondition (seat : Seat) :
    Statement (Instr.clearCondition seat) := by
  intro _; simp [bytes, lengths]

theorem restart (seat : Seat) :
    Statement (Instr.restart seat) := by
  intro _; simp [bytes, lengths]

theorem frameEnd (seat : Seat) (cut : Cut) :
    Statement (Instr.frameEnd seat cut) := by
  intro _; simp [bytes, lengths]

theorem seatSilent (seat : Seat) :
    Statement (Instr.seatSilent seat) := by
  intro _; simp [bytes, lengths]

theorem readingFrame (meter : Fin 8) (b : Burst) :
    Statement (Instr.readingFrame meter b) := by
  intro h
  have h' : b.bytes ≠ [] := by simpa [Instr.wellFormed] using h
  simp [bytes, lengths, h']

theorem staleDeadline (meter : Fin 8) :
    Statement (Instr.staleDeadline meter) := by
  intro _; simp [bytes, lengths]

theorem holdTimerExpiry (portal : Fin 4) :
    Statement (Instr.holdTimerExpiry portal) := by
  intro _; simp [bytes, lengths]

theorem mismatch (portal : Fin 4) :
    Statement (Instr.mismatch portal) := by
  intro _; simp [bytes, lengths]

theorem dwellExpiry (portal : Fin 4) :
    Statement (Instr.dwellExpiry portal) := by
  intro _; simp [bytes, lengths]

theorem claimExpired (portal : Fin 4) (number : Nat) :
    Statement (Instr.claimExpired portal number) := by
  intro _; simp [bytes, lengths]

theorem rampInterval :
    Statement (Instr.rampInterval) := by
  intro _; simp [bytes, lengths]

theorem overlapOnExpiry (portal : Fin 4) (zone : Fin 5) :
    Statement (Instr.overlapOnExpiry portal zone) := by
  intro _; simp [bytes, lengths]

theorem overlapOffExpiry (portal : Fin 4) (zone : Fin 5) :
    Statement (Instr.overlapOffExpiry portal zone) := by
  intro _; simp [bytes, lengths]

theorem confirmTimeout (portal : Fin 4) (zone : Fin 5) :
    Statement (Instr.confirmTimeout portal zone) := by
  intro _; simp [bytes, lengths]

theorem fireInputChange (portal : Fin 4) (high : Bool) :
    Statement (Instr.fireInputChange portal high) := by
  intro _; simp [bytes, lengths]

theorem debounceExpiry (portal : Fin 4) :
    Statement (Instr.debounceExpiry portal) := by
  intro _; simp [bytes, lengths]

theorem frameSent (line : Fin 4) :
    Statement (Instr.frameSent line) := by
  intro _; simp [bytes, lengths]

theorem statusReply (line : Fin 4) (b : Burst) :
    Statement (Instr.statusReply line b) := by
  intro h
  have h' : b.bytes ≠ [] := by simpa [Instr.wellFormed] using h
  simp [bytes, lengths, h']

theorem replyWindowExpiry (line : Fin 4) :
    Statement (Instr.replyWindowExpiry line) := by
  intro _; simp [bytes, lengths]

theorem adoption (portal : Fin 4) :
    Statement (Instr.adoption portal) := by
  intro _; simp [bytes, lengths]

theorem storeWriteEnd (verified : Bool) :
    Statement (Instr.storeWriteEnd verified) := by
  intro _; simp [bytes, lengths]

end Sys2Proof.Laws.Payload
end

