-- ==== Sys2Proof/Laws/Posts.lean ====
section
/-! SUPPORT. What the shared operations post: the events that they place in every queue, in their order,
as one list. -/

namespace Sys2Proof.Machine

/-- From `s` to `t` the events of one list, each of which meets `E`, have been posted to every seat in the
list's order, at one moment. -/
def Broadcasts (E : Event → Prop) (s t : State) : Prop :=
  t.now = s.now ∧ ∃ l : List Event, (∀ e ∈ l, E e) ∧
    ∀ seat, t.queue seat = l.foldl (fun q e => q.place e s.uptime) (s.queue seat)

theorem uptime_of_now {s t : State} (h : t.now = s.now) : t.uptime = s.uptime := by
  simp only [State.uptime, State.tenths, h]

namespace Broadcasts

variable {E : Event → Prop}

/-- An operation that writes neither the clock nor a queue posts nothing. -/
theorem quiet {s t : State} (hn : t.now = s.now) (hq : t.queues = s.queues) : Broadcasts E s t :=
  ⟨hn, [], by simp, fun seat => by simp [State.queue, hq]⟩

theorem trans {s t u : State} (h : Broadcasts E s t) (k : Broadcasts E t u) : Broadcasts E s u := by
  obtain ⟨hn, l, hl, hq⟩ := h
  obtain ⟨kn, m, hm, kq⟩ := k
  refine ⟨kn.trans hn, l ++ m, ?_, fun seat => ?_⟩
  · intro e he
    rcases List.mem_append.mp he with he | he
    · exact hl e he
    · exact hm e he
  · rw [kq, hq, uptime_of_now hn, List.foldl_append]

/-- The events of an operation that begins where one that posts nothing has ended. -/
theorem after {s t u : State} (k : Broadcasts E t u) (hn : t.now = s.now) (hq : t.queues = s.queues) :
    Broadcasts E s u := (quiet hn hq).trans k

theorem mono {F : Event → Prop} {s t : State} (hEF : ∀ e, E e → F e) (h : Broadcasts E s t) :
    Broadcasts F s t :=
  ⟨h.1, h.2.choose, fun e he => hEF e (h.2.choose_spec.1 e he), h.2.choose_spec.2⟩

end Broadcasts

/-- One event posted to every seat. -/
theorem postAll_broadcasts {E : Event → Prop} {e : Event} (he : E e) (s : State) :
    Broadcasts E s (postAll e s) := by
  refine ⟨rfl, [e], by simpa using he, fun seat => ?_⟩
  cases seat <;> simp [postAll, postTo, State.queue, State.setQueue, seatIx, State.uptime, State.tenths]

/-- A repetition of operations that post nothing. -/
theorem forEach_broadcasts {α : Type} {E : Event → Prop} {l : List α} {f : α → State → State}
    (h : ∀ a ∈ l, ∀ s, Broadcasts E s (f a s)) (s : State) : Broadcasts E s (forEach l f s) := by
  induction l generalizing s with
  | nil => exact .quiet rfl rfl
  | cons a rest ih =>
    exact (h a List.mem_cons_self s).trans
      (ih (fun b hb => h b (List.mem_cons_of_mem a hb)) (f a s))

/-- Zones, channels and levels that enter post nothing. -/
theorem quietLight (p : Fin 4) (u : State) :
    KeptByLight p (fun k => k.portal = p) (fun s => s.now = u.now ∧ s.queues = u.queues) where
  place := fun _ hk => hk
  scope := fun _ _ _ hk => circuit_portal hk
  zone := fun _ _ _ hs => hs
  channel := fun _ _ _ _ hs => hs
  enter := fun _ _ _ _ hs => hs

theorem plan_broadcasts {E : Event → Prop} (p : Fin 4) (z : Fin 5) (zn : Zone) (s : State) :
    Broadcasts E s (plan p z zn s) :=
  have h := plan_keeps (quietLight p s) z zn s ⟨rfl, rfl⟩
  .quiet h.1 h.2

theorem handTargets_broadcasts {E : Event → Prop} (p : Fin 4) (s : State) :
    Broadcasts E s (handTargets p s) :=
  have h := handTargets_keeps (quietLight p s) s ⟨rfl, rfl⟩
  .quiet h.1 h.2

/-! ### Stage and source (R32, R74) -/

/-- STAGE_CHANGED or SOURCE_CHANGED of portal `p`. -/
def StageOrSource (p : Fin 4) (e : Event) : Prop :=
  (∃ a b c, e = .stageChanged p a b c) ∨ ∃ x, e = .sourceChanged p x

theorem resolveStage_broadcasts (p : Fin 4) (s : State) :
    Broadcasts (StageOrSource p) s (resolveStage p s) := by
  unfold resolveStage
  dsimp only
  split
  · exact .quiet rfl rfl
  · exact (postAll_broadcasts (Or.inl ⟨_, _, _, rfl⟩) _).after rfl rfl

theorem resolve_broadcasts (p : Fin 4) (s : State) : Broadcasts (StageOrSource p) s (resolve p s) := by
  unfold resolve
  dsimp only
  split
  · exact resolveStage_broadcasts p s
  · exact (resolveStage_broadcasts p s).trans (handTargets_broadcasts p _)

theorem moveTo_broadcasts (p : Fin 4) (stage : Nat) (s : State) :
    Broadcasts (StageOrSource p) s (moveTo p stage s) :=
  (resolve_broadcasts p (setStage p stage s)).after rfl rfl

theorem downward_broadcasts (p : Fin 4) (s : State) :
    Broadcasts (StageOrSource p) s (downward p s) := by
  unfold downward
  dsimp only
  split
  · exact moveTo_broadcasts p _ s
  · exact .quiet rfl rfl

theorem offer_broadcasts (p : Fin 4) (demand : Nat) (s : State) :
    Broadcasts (StageOrSource p) s (offer p demand s) := by
  unfold offer
  dsimp only
  split
  · exact (moveTo_broadcasts p _ _).after rfl rfl
  · exact (downward_broadcasts p _).after rfl rfl

theorem handOver_broadcasts (p : Fin 4) (base : BaseState) (status : SourceStatus) (s : State) :
    Broadcasts (StageOrSource p) s (handOver p base status s) := by
  have moves (stage : Nat) (u : State) (hn : u.now = s.now) (hq : u.queues = s.queues) :
      Broadcasts (StageOrSource p) s (moveTo p stage u) :=
    (moveTo_broadcasts p stage u).after hn hq
  unfold handOver
  dsimp only
  split
  · split
    · exact offer_broadcasts p _ s
    · split
      · split
        · exact .quiet rfl rfl
        · exact moves _ _ rfl rfl
      · split
        · exact moves _ _ rfl rfl
        · split
          · exact offer_broadcasts p _ s
          · exact .quiet rfl rfl
  · exact .quiet rfl rfl

theorem startRunning_quiet (p : Fin 4) (s : State) :
    (startRunning p s).now = s.now ∧ (startRunning p s).queues = s.queues := by
  unfold startRunning
  split <;> exact ⟨rfl, rfl⟩

theorem evaluateOnly_broadcasts (p : Fin 4) (s : State) :
    Broadcasts (StageOrSource p) s (evaluateOnly p s) := by
  have hr := startRunning_quiet p s
  unfold evaluateOnly
  dsimp only
  generalize startRunning p s = run at hr ⊢
  have told (status : SourceStatus) (e : Evaluator) : Broadcasts (StageOrSource p) run
      (if status = e.status then run else postAll (.sourceChanged p status) run) := by
    split
    · exact .quiet rfl rfl
    · exact postAll_broadcasts (Or.inr ⟨_, rfl⟩) _
  refine ((told _ _).after hr.1 hr.2).trans (.quiet rfl rfl)

/-- An evaluation posts changes of its portal's source status and stage, and nothing else. -/
theorem evaluate_broadcasts (p : Fin 4) (s : State) : Broadcasts (StageOrSource p) s (evaluate p s) :=
  (evaluateOnly_broadcasts p s).trans (handOver_broadcasts p _ _ _)

/-- What follows from a changed claim list posts no more than that. -/
theorem claimsChanged_broadcasts (p : Fin 4) (injection : Bool) (s : State) :
    Broadcasts (StageOrSource p) s (claimsChanged p injection s) := by
  unfold claimsChanged
  dsimp only
  split
  · exact (resolve_broadcasts p s).trans (evaluate_broadcasts p _)
  · exact resolve_broadcasts p s

/-! ### Trips and the line condition (R116, R120, R134) -/

/-- TRIPPED or TRIP_CLEARED of portal `p`. -/
def TripEvent (p : Fin 4) (e : Event) : Prop :=
  (∃ x y, e = .tripped p x y) ∨ e = .tripCleared p

theorem enterTrip_quiet (p : Fin 4) (s : State) :
    (enterTrip p s).now = s.now ∧ (enterTrip p s).queues = s.queues :=
  forEach_keeps (P := fun t => t.now = s.now ∧ t.queues = s.queues)
    (fun z _ u hu => enterHeld_keeps (quietLight p s) z u hu) _
    (commandFailLevels_keeps (quietLight p s) _ ⟨rfl, rfl⟩)

theorem exitTrip_broadcasts (p : Fin 4) (s : State) : Broadcasts (TripEvent p) s (exitTrip p s) := by
  have told : Broadcasts (TripEvent p) s
      (postAll (.tripCleared p) (s.setTrip p { s.tripUnit p with overlay := false })) :=
    (postAll_broadcasts (Or.inr rfl) _).after rfl rfl
  unfold exitTrip
  dsimp only
  generalize postAll (.tripCleared p) _ = clear at told ⊢
  refine told.trans ?_
  have hz := forEach_keeps (P := fun t => t.now = clear.now ∧ t.queues = clear.queues)
    (l := allZones) (f := leaveHeld p)
    (fun z _ u hu => leaveHeld_keeps (quietLight p clear) z u hu) clear ⟨rfl, rfl⟩
  generalize forEach allZones (leaveHeld p) clear = planned at hz ⊢
  have cs : ∀ k ∈ planned.circuits p, k.portal = p := fun _ hk => circuit_portal hk
  generalize planned.circuits p = ks at cs ⊢
  have hk := forEach_keeps (P := fun t => t.now = clear.now ∧ t.queues = clear.queues)
    (l := ks) (f := leaveFailLevel)
    (fun k hk u hu => leaveFailLevel_keeps (quietLight p clear) k (cs k hk) u hu) planned hz
  exact .quiet hk.1 hk.2

theorem joinIfNew_broadcasts (p : Fin 4) (new kept : TripSet) (x : TripSource) (s : State) :
    Broadcasts (TripEvent p) s (joinIfNew p new kept x s) := by
  unfold joinIfNew
  split
  · unfold joinSource
    dsimp only
    refine (postAll_broadcasts (Or.inl ⟨_, _, rfl⟩) _).after ?_ ?_ <;> split
    · rfl
    · exact (enterTrip_quiet p _).1
    · rfl
    · exact (enterTrip_quiet p _).2
  · exact .quiet rfl rfl

/-- The recomputation of a portal's trip sources posts TRIPPED and TRIP_CLEARED, and nothing else. -/
theorem recompute_broadcasts (p : Fin 4) (s : State) : Broadcasts (TripEvent p) s (recompute p s) := by
  have joined (new kept : TripSet) (u : State) : Broadcasts (TripEvent p) u
      (joinIfNew p new kept .order (joinIfNew p new kept .line (joinIfNew p new kept .fire u))) :=
    .trans (joinIfNew_broadcasts p _ _ _ _)
      (.trans (joinIfNew_broadcasts p _ _ _ _) (joinIfNew_broadcasts p _ _ _ _))
  unfold recompute
  dsimp only
  split
  · exact ((joined _ _ _).trans (exitTrip_broadcasts p _)).after rfl rfl
  · exact (joined _ _ _).after rfl rfl

/-- A test of the line condition posts LINE_STATE of the line, and nothing else. -/
theorem testLineOnly_broadcasts (n : Fin 4) (s : State) :
    Broadcasts (fun e => ∃ x, e = .lineState n x) s (testLineOnly n s) := by
  unfold testLineOnly
  dsimp only
  split
  · exact .quiet rfl rfl
  · exact ((postAll_broadcasts ⟨_, rfl⟩ _).after rfl rfl).trans (.quiet rfl rfl)

/-- A changed meter posts METER_STATE exactly where its state changes (R24). -/
theorem changeMeter_broadcasts (m : Fin 8) (p : Fin 4) (cause : MeterCause) (x : Meter) (s : State) :
    Broadcasts (fun e => e = .meterState p m cause (s.meter m).state x.state) s
      (changeMeter m p cause x s) := by
  unfold changeMeter
  dsimp only
  split
  · exact .quiet rfl rfl
  · exact (postAll_broadcasts (E := fun e => e = _) rfl _).after rfl rfl

end Sys2Proof.Machine
end

