-- ==== Sys2Proof/Laws/Trips.lean ====
section
/-! SUPPORT. What the recomputation of a portal's trip sources leaves in its Trip Unit (R110, R116,
R120), in closed form. -/

namespace Sys2Proof.Machine

/-- Zones, channels and levels that enter leave every Trip Unit. -/
theorem tripsLight (p : Fin 4) (v : Vector TripUnit 4) :
    KeptByLight p (fun k => k.portal = p) (fun s => s.trips = v) where
  place := fun _ hk => hk
  scope := fun _ _ _ hk => circuit_portal hk
  zone := fun _ _ _ hs => hs
  channel := fun _ _ _ _ hs => hs
  enter := fun _ _ _ _ hs => hs

theorem tripsPosts (v : Vector TripUnit 4) : KeptByPosts (fun s => s.trips = v) :=
  fun _ _ _ _ hs => hs

theorem enterTrip_trips (p : Fin 4) (s : State) :
    (enterTrip p s).trips =
      wr s.trips p { s.tripUnit p with overlay := true, overlayAt := some s.tenths } :=
  forEach_keeps (fun z _ s hs => enterHeld_keeps (tripsLight p _) z s hs) _
    (commandFailLevels_keeps (tripsLight p _) _ rfl)

theorem exitTrip_trips (p : Fin 4) (s : State) :
    (exitTrip p s).trips = wr s.trips p { s.tripUnit p with overlay := false } := by
  have hc := postAll_keeps (tripsPosts (wr s.trips p { s.tripUnit p with overlay := false }))
    (.tripCleared p) (by simp [Event.kind])
    (s.setTrip p { s.tripUnit p with overlay := false }) rfl
  have hz := forEach_keeps (l := allZones) (f := leaveHeld p)
    (fun z _ s hs => leaveHeld_keeps (tripsLight p _) z s hs) _ hc
  unfold exitTrip
  dsimp only
  generalize forEach allZones (leaveHeld p) _ = planned at hz ⊢
  have cs : ∀ k ∈ planned.circuits p, k.portal = p := fun _ hk => circuit_portal hk
  generalize planned.circuits p = ks at cs ⊢
  exact forEach_keeps
    (fun k hk s hs => leaveFailLevel_keeps (tripsLight p _) k (cs k hk) s hs) _ hz

/-- A Trip Unit that a source joins (R110, R116). -/
def TripUnit.joined (u : TripUnit) (x : TripSource) (now : Nat) : TripUnit :=
  { u with
    sources := u.sources.join x
    overlay := true
    overlayAt := if u.overlay then u.overlayAt else some now }

theorem joinSource_trips (p : Fin 4) (x : TripSource) (s : State) :
    (joinSource p x s).trips = wr s.trips p ((s.tripUnit p).joined x s.tenths) := by
  unfold joinSource
  dsimp only
  refine postAll_keeps (tripsPosts _) _ (by simp [Event.kind]) _ ?_
  split
  · next ho => simp [TripUnit.joined, ho]
  · next ho =>
    rw [enterTrip_trips]
    simp [TripUnit.joined, ho, State.tripUnit, State.tenths]

/-- The trip writes of portal `p` keep whatever does not look at the lighting, the queues or the Trip
Units: the clock, the sets, the base states. -/
theorem tripsFrame {α : Type} (p : Fin 4) (v : α) (read : State → α)
    (hz : ∀ p z x s, read (s.setZone p z x) = read s)
    (hc : ∀ c x s, read (s.setChannel c x) = read s)
    (hl : ∀ n x s, read (s.setLine n x) = read s)
    (hq : ∀ seat x s, read (s.setQueue seat x) = read s)
    (ht : ∀ p x s, read (s.setTrip p x) = read s) :
    KeptByTrips p (fun k => k.portal = p) (fun s => read s = v) where
  place := fun _ hk => hk
  scope := fun _ _ _ hk => circuit_portal hk
  zone := fun _ _ _ hs => (hz _ _ _ _).trans hs
  channel := fun _ _ _ _ hs => (hc _ _ _).trans hs
  enter := fun _ _ _ _ hs => (hl _ _ _).trans hs
  post := fun _ _ _ _ hs => (hq _ _ _).trans hs
  trip := fun _ _ hs => (ht _ _ _).trans hs

theorem joinIfNew_trips (p : Fin 4) (new kept : TripSet) (x : TripSource) (s : State) :
    (joinIfNew p new kept x s).trips =
      wr s.trips p
        (if new.has x && !kept.has x then (s.tripUnit p).joined x s.tenths else s.tripUnit p) := by
  unfold joinIfNew
  split
  · exact joinSource_trips _ _ _
  · simp [State.tripUnit]

theorem joinIfNew_now (p : Fin 4) (new kept : TripSet) (x : TripSource) (s : State) :
    (joinIfNew p new kept x s).now = s.now :=
  joinIfNew_keeps (tripsFrame p s.now State.now (fun _ _ _ _ => rfl) (fun _ _ _ => rfl)
    (fun _ _ _ => rfl) (fun _ _ _ => rfl) (fun _ _ _ => rfl)) _ _ _ _ rfl

/-- A Trip Unit after its sources are recomputed to `new`. -/
def TripUnit.recomputed (u : TripUnit) (new : TripSet) (now : Nat) : TripUnit :=
  { u with
    sources := new
    overlay := new != TripSet.empty
    overlayAt := if !u.overlay && new != TripSet.empty then some now else u.overlayAt }

/-- The recomputation at a portal whose overlay stands with its sources: the sources are those of
R110, the overlay stands with them, and no other Trip Unit changes. -/
theorem recompute_trips (p : Fin 4) (s : State)
    (h : (s.tripUnit p).overlay = ((s.tripUnit p).sources != TripSet.empty)) :
    (recompute p s).trips =
      wr s.trips p ((s.tripUnit p).recomputed (s.sourcesOf p) s.tenths) := by
  have key : ∀ u : TripUnit, ∀ new : TripSet, ∀ now : Nat,
      u.overlay = (u.sources != TripSet.empty) →
      let join (x : TripSource) (v : TripUnit) : TripUnit :=
        if new.has x && !(u.sources.meet new).has x then v.joined x now else v
      let v := join .order (join .line (join .fire { u with sources := u.sources.meet new }))
      (if new = TripSet.empty ∧ v.overlay = true then { v with overlay := false } else v) =
        u.recomputed new now := by
    intro u new now hu
    obtain ⟨f, l, o⟩ := new
    obtain ⟨_, _, _, _, _, _, ⟨f', l', o'⟩, ov, _⟩ := u
    dsimp only at hu
    subst hu
    cases f <;> cases l <;> cases o <;> cases f' <;> cases l' <;> cases o' <;>
      simp [TripUnit.recomputed, TripUnit.joined, TripSet.meet, TripSet.has, TripSet.join,
        TripSet.empty] <;> rfl
  have hjoin : ∀ v : Vector TripUnit 4, ∀ now : Nat, ∀ u : State, u.trips = v → u.now = now →
      ∀ (new kept : TripSet) (x : TripSource),
        (joinIfNew p new kept x u).trips =
            wr v p (if new.has x && !kept.has x then (rd v p).joined x (now / 100) else rd v p) ∧
          (joinIfNew p new kept x u).now = now := by
    intro v now u hv hn new kept x
    subst hv hn
    exact ⟨joinIfNew_trips _ _ _ _ _, joinIfNew_now _ _ _ _ _⟩
  have last : ∀ (j : State) (w : TripUnit), j.trips = wr s.trips p w →
      (if s.sourcesOf p = TripSet.empty ∧ (j.tripUnit p).overlay = true then exitTrip p j else j).trips =
        wr s.trips p
          (if s.sourcesOf p = TripSet.empty ∧ w.overlay = true then { w with overlay := false } else w) := by
    intro j w hw
    have hj : j.tripUnit p = w := by rw [State.tripUnit, hw, rd_wr_self]
    rw [hj]
    split
    · rw [exitTrip_trips, hj, hw, wr_wr]
    · exact hw
  rw [← key (s.tripUnit p) (s.sourcesOf p) s.tenths h]
  unfold recompute
  dsimp only
  obtain ⟨a1, a2⟩ := hjoin
    (wr s.trips p { s.tripUnit p with sources := (s.tripUnit p).sources.meet (s.sourcesOf p) }) s.now
    (s.setTrip p { s.tripUnit p with sources := (s.tripUnit p).sources.meet (s.sourcesOf p) }) rfl rfl
    (s.sourcesOf p) ((s.tripUnit p).sources.meet (s.sourcesOf p)) .fire
  obtain ⟨b1, b2⟩ := hjoin _ _ _ a1 a2 (s.sourcesOf p)
    ((s.tripUnit p).sources.meet (s.sourcesOf p)) .line
  obtain ⟨c1, _⟩ := hjoin _ _ _ b1 b2 (s.sourcesOf p)
    ((s.tripUnit p).sources.meet (s.sourcesOf p)) .order
  simp only [wr_wr, rd_wr_self] at c1
  generalize joinIfNew p (s.sourcesOf p) ((s.tripUnit p).sources.meet (s.sourcesOf p)) .order _ = j
    at c1 ⊢
  exact last _ _ c1

end Sys2Proof.Machine
end

