-- ==== Sys2Proof/Tests/Slice0.lean ====
section
/-! SUPPORT. Tests: ill-formed commands are refused, each statement's hypotheses are met by a concrete
state and operands, clause by clause, and small runs of single commands. -/

namespace Sys2Proof.Tests

set_option maxRecDepth 8192

open Sys2Proof.Machine

/-- Bytes received after a silence. -/
def wire (l : List Byte) : Burst := { silence := true, bytes := l }

/-! ### Well-formedness -/

/-- A header with the given bytes. -/
def hdr (target place count : Nat) : Header := ⟨byte target, byte place, byte count⟩

/-- A record of the given bytes. -/
def recOf (l : List Nat) : List Byte := l.map byte

theorem test_wellformed_accepts :
    (Instr.pushClaim .A (hdr 1 0 1) (recOf [1, 0, 0, 2, 0, 0, 0, 0])).wellFormed = true ∧
    (Instr.badCommand .A 20).wellFormed = true ∧ (Instr.claimExpired 0 65535).wellFormed = true ∧
    (Instr.write .A (hdr 17 0 1) (recOf [5, 0])).wellFormed = true ∧
    (Instr.withdrawAny .A (hdr 0 0 1) []).wellFormed = true ∧
    (Instr.frameEnd .A (.firstRecord .trip (hdr 1 0 1) 1)).wellFormed = true := by decide
theorem test_illformed_bad_command : (Instr.badCommand .A 19).wellFormed = false := by decide
theorem test_illformed_write : (Instr.write .A (hdr 17 0 1) (recOf [5])).wellFormed = false := by decide
theorem test_illformed_write_record : (Instr.writeRecord .A (recOf [1, 2, 3])).wellFormed = false := by
  decide
theorem test_illformed_push : (Instr.pushClaim .A (hdr 1 0 1) (recOf [1])).wellFormed = false := by decide
theorem test_illformed_withdraw : (Instr.withdraw .A (hdr 0 0 1) []).wellFormed = false := by decide
theorem test_illformed_withdraw_any : (Instr.withdrawAny .L (hdr 0 0 1) []).wellFormed = false := by decide
theorem test_illformed_channel_commands :
    (Instr.takeChannel .A (hdr 0 0 1) (recOf [0, 0])).wellFormed = false ∧
    (Instr.setChannel .A (hdr 0 0 1) []).wellFormed = false ∧
    (Instr.releaseChannel .A (hdr 0 0 1) (recOf [0, 0, 0])).wellFormed = false := by decide
theorem test_illformed_trip_commands : (Instr.trip .A (hdr 1 0 1) (recOf [7])).wellFormed = false ∧
    (Instr.tripReset .A (hdr 1 0 1) (recOf [7, 0, 0])).wellFormed = false := by decide
theorem test_illformed_set_seat : (Instr.setSeat .A (hdr 0 0 1) (recOf [0, 5])).wellFormed = false := by
  decide
theorem test_illformed_frame_end :
    (Instr.frameEnd .A (.firstRecord .trip (hdr 1 0 1) 2)).wellFormed = false := by decide
theorem test_illformed_frames : (Instr.readingFrame 0 (wire [])).wellFormed = false ∧
    (Instr.statusReply 0 (wire [])).wellFormed = false := by decide
theorem test_illformed_claim_number : (Instr.claimExpired 0 0).wellFormed = false ∧
    (Instr.claimExpired 0 65536).wellFormed = false := by decide

/-! ### A small configured part: P0 with TH1 (B = 400) on C0 DIMMED and C1 SWITCHED -/

/-- A stage row with a TH1 level. -/
def demoRow (rise fall : Option Nat) (dwell th1 : Nat) : StageRow :=
  { rise := rise, fall := fall, dwell := dwell, levels := wr (Vector.replicate 5 0) 0 th1 }

/-- The record of C0. -/
def lampC0 : ChannelRecord :=
  { channel := 0, zone := some 0, switched := false, failLevel := 1000, minLevel := 100 }

/-- The record of C1. -/
def lampC1 : ChannelRecord :=
  { channel := 1, zone := some 0, switched := true, failLevel := 1000, minLevel := 0 }

/-- The circuits of C0 and C1. -/
def circuit0 : Circuit := { portal := 0, addr := 0, cfg := lampC0 }

/-- The circuit of C1. -/
def circuit1 : Circuit := { portal := 0, addr := 1, cfg := lampC1 }

/-- The set of P0. -/
def demoSet : PortalSet :=
  { PortalSet.default with
    record :=
      { PortalSet.default.record with
        enabled := true, zones := wr (Vector.replicate 5 false) 0 true
        slot0 := some 0, slot1 := some 1, boost := wr (Vector.replicate 5 0) 0 400 }
    stageCount := 3
    rows :=
      wr (wr (wr (Vector.replicate 12 StageRow.empty) 0 (demoRow none none 0 40)) 1
        (demoRow (some 300) (some 200) 300 350)) 2 (demoRow (some 1000) (some 700) 300 1000)
    slots := wr (wr (Vector.replicate 16 none) 0 (some lampC0)) 1 (some lampC1) }

/-- The part after power-on with that set stored. -/
def demo : State :=
  powerUp .powerOn { State.reset with image := some (wr (Vector.replicate 4 PortalSet.default) 0 demoSet) }

/-- A seat's frame that awaits its header. -/
def inFrame (seat : Seat) (s : State) : State := s.setPort seat { s.port seat with phase := .header }

/-- A seat's frame in another phase. -/
def inPhase (seat : Seat) (x : FramePhase) (s : State) : State :=
  s.setPort seat { s.port seat with phase := x }

/-- A seat's grant of P0 with an EDITABLE or a LOCKED shadow. -/
def holding (seat : Seat) (locked : Bool) (s : State) : State :=
  s.setEdit 0 { holder := some seat, shadow := some { set := demoSet, locked := locked }
                pendingSet := none }

/-- A pending set on P0. -/
def waitingSet (s : State) : State :=
  s.setEdit 0 { s.edit 0 with pendingSet := some { set := demoSet, seat := .A, time := 0 } }

/-- A claim of Seat A on P0. -/
def claimOf (number : Nat) (kind : ClaimKind) (argument : Nat) : Claim :=
  { number := number, seat := .A, kind := kind, argument := some argument, captured := none,
    kept := false, deadline := some 5, pushedAt := 0 }

/-- P0 with some claims. -/
def claiming (l : List Claim) (s : State) : State := s.setArbiter 0 { s.arbiter 0 with claims := l }

/-- C0 in HAND for a seat. -/
def handed (c : Fin 32) (seat : Seat) (s : State) : State :=
  s.setChannel c { s.channel c with hand := some { seat := seat, level := 500 } }

/-- P0 with its zone TH1 in a state, its switched target and its confirmation as given. -/
def zoned (state : ZoneState) (working : Nat) (switched confirmed degraded : Bool) (s : State) : State :=
  s.setZone 0 0 (some
    { state := state, working := working, latest := some 40, switched := switched,
      confirmed := confirmed, overlap := some 0, confirm := some 0, degraded := degraded })

/-- P0 with a transaction on its line whose window is open. -/
def windowed (level : Option Nat) (channel : Fin 32) (addr : Fin 16) (misses : Nat) (s : State) : State :=
  s.setLine 0
    { s.lampLine 0 with
      updates := []
      stations := wr (s.lampLine 0).stations addr
        (some { channel := channel, misses := misses, status := none })
      tx := some { level := level, addr := addr, channel := some channel, departing := none,
                   frame := [], phase := .window 5 false } }

/-- Meter M0 in a state with a ring. -/
def metered (state : MeterState) (ring : List Reading) (s : State) : State :=
  s.setMeter 0
    { state := state, ring := ring, estimate := some 900, badCount := 1, lastSeq := none,
      window := false, heater := false, staleDeadline := some 0 }

/-- Readings of one luminance. -/
def reading (seq luminance : Nat) : Reading := { seq := seq, luminance := luminance, arrival := 0 }

/-- An undamaged reading frame: sequence 9, luminance 1000. -/
def frame9 : List Byte := recOf [9, 3, 232, 0, 12]

/-- The same frame with SENSOR set, and one with a luminance of 20,001. -/
def frameSensor : List Byte := recOf [9, 3, 232, 4, 8]

/-- A reading frame with a luminance of 20,001. -/
def frameRange : List Byte := recOf [9, 78, 33, 0, 136]

/-- A STATUS frame of address 0 at level 500, and of address 1 CLOSED at level 1000. -/
def status0 : List Byte := recOf [48, 1, 244, 0, 219]

/-- A STATUS frame of address 1, CLOSED, at level 1000. -/
def status1 : List Byte := recOf [49, 3, 232, 4, 224]

/-- P0 RUNNING with a selector in FOLLOWING at a stage, its dwell due. -/
def following (stage demand : Nat) (s : State) : State :=
  (s.setBase 0 .running).setSelector 0
    { following := true, automatic := stage, dwell := some 0, enteredAt := 0,
      demandInUse := some demand }

/-- What a command answers, if it goes on. -/
def after (i : Instr) (s : State) : State :=
  match exec i s with
  | .next t => t
  | _ => s

/-! ### The hypotheses of the statements are met -/

/-- The reset state once its dwell timers have run. -/
def quiet : State :=
  { State.reset with
    selectors := tab fun _ =>
      { following := false, automatic := 0, dwell := none, enteredAt := 0, demandInUse := none } }

theorem meets_step : State.reset.pending = [] ∧ State.reset.nextDue = some (.dwellExpiry 0) ∧
    quiet.nextDue = none := by decide
/-- A frame that awaits its header meets the first hypothesis of every statement about a seat's command,
and has the rest of the state, on which the witnesses below meet the other hypotheses. -/
theorem meets_header_phase (seat : Seat) (s : State) :
    ((inFrame seat s).port seat).phase = .header ∧ { inFrame seat s with ports := s.ports } = s := by
  constructor
  · simp [inFrame, State.setPort, State.port]
  · rfl
theorem meets_resets : (Instr.powerOn = .powerOn ∧ ResetCause.powerOn = .powerOn) ∧
    demo.assignment 0 = some circuit0 ∧ demo.assignment 2 = none := by decide
theorem meets_restart :
    (Seat.A ≠ Seat.L ∧ ((inFrame .A demo).port .A).phase = .header) ∧
    ((inFrame .L (enterTrip 0 demo)).port .L).phase = .header ∧
    (inFrame .L (enterTrip 0 demo)).tripped 0 = true ∧
    ((inFrame .L (enterTrip 0 demo)).zone 0 0).isSome = true ∧
    ((inFrame .L demo).set 0).switchedOf 0 0 = some circuit1 := by decide
theorem meets_restart_lines_and_plans :
    ((inFrame .L (beginTransactions demo)).lampLine 0).tx.map Transaction.phase =
      some (.sending 10) ∧
    ((inFrame .L (beginTransactions demo)).lampLine 0).updates.map Entry.addr = [1] ∧
    ((inFrame .L demo).lampLine 1).tx = none ∧ ((inFrame .L demo).lampLine 1).updates = [] ∧
    (∀ a, rd ((inFrame .L demo).lampLine 1).stations a = none) ∧
    (demo.zone 0 0).isSome = true ∧ demo.tripped 0 = false ∧
    ((demo.set 0).circuits 0) = [circuit0, circuit1] ∧ (demo.set 1).circuits 1 = [] ∧
    demo.zone 0 1 = none := by decide
theorem meets_only : demo.only circuit0 ∧ demo.only circuit1 := by
  unfold State.only; decide
theorem meets_outside_frames : (demo.port .A).phase ≠ .header ∧
    ((inFrame .A demo).port .A).phase ≠ .idle ∧ (demo.port .A).phase = .idle ∧
    (recOf [1]).length ≠ 2 := by decide
theorem meets_frame_begin : (demo.port .B).phase = .idle ∧
    ((inFrame .B demo).port .B).phase = .header ∧ 20 ≤ (20#8).toNat ∧ 20 ≤ (255#8).toNat := by decide
theorem meets_command_codes :
    frameCommand .A (recOf [0, 1, 2, 3]) = some (.nop .A) ∧
    frameCommand .A (recOf [3, 1, 0, 1, 9]) = some (.pushClaim .A (hdr 1 0 1) (recOf [9])) ∧
    frameCommand .L (recOf [19, 0, 0, 0]) = some (.restart .L) ∧
    frameCommand .A (recOf [20, 0, 0, 0]) = some (.badCommand .A 20) ∧
    frameCommand .A (recOf [19, 0, 0]) = none ∧
    (({ demo.port .A with out := recOf [1, 2] } : SeatPort).out[1]? = some 2#8 ∧
      ({ demo.port .A with out := recOf [1, 2] } : SeatPort).out.length ≤ 2) := by decide
theorem meets_frame_end : ((inPhase .A .tail demo).port .A).phase = .tail ∧
    headerRefusal .A .trip (hdr 1 0 1) = none ∧
    headerRefusal .A .withdrawAny (hdr 0 0 1) = some .seatDenied := by decide

/-- A transfer of a READ or a WRITE. -/
def transfer (cls index left : Nat) (stepping : Stepping) : Transfer :=
  { cls := cls, owner := 0, index := index, stepping := stepping, left := left, done := 0 }

theorem meets_transfers :
    ((inPhase .A (.reading (transfer 3 0 1 .ascend) none) demo).port .A).phase =
      .reading (transfer 3 0 1 .ascend) none ∧
    ((inPhase .A (.writing (transfer 16 0 1 .ascend)) demo).port .A).phase =
      .writing (transfer 16 0 1 .ascend) ∧
    (demo.objectBytes .A 15 0 0).isSome = true ∧
    demo.objectRange .A 3 0 = 8 ∧ demo.objectRange .A 15 0 = 1 := by decide
theorem meets_read_headers : (hdr 24 0 1).cls = 24 ∧ (hdr 136 0 1).cls = 8 ∧ (hdr 136 0 1).owner = 4 ∧
    (hdr 3 192 1).stepping = none ∧ (hdr 3 0 0).records = 0 ∧ (hdr 3 8 1).index = 8 ∧
    (hdr 3 7 255).stepping = some .ascend := by decide
theorem meets_read_records :
    (demo.set 0).stageCount = 3 ∧ ((claiming [claimOf 5 .floor 2] demo).arbiter 0).claims[0]? =
      some (claimOf 5 .floor 2) ∧
    ((metered .valid [reading 1 900] demo).meter 0).ring[0]? = some (reading 1 900) ∧
    demo.assignment 0 = some circuit0 ∧ (rd (demo.lampLine 0).stations 0).isSome = true ∧
    (∀ n, ∀ y ∈ (demo.lampLine n).departed, y.channel ≠ 9) ∧ demo.assignment 9 = none ∧
    (demo.edit 0).shadow = none ∧ ((holding .A false demo).edit 0).shadow.isSome = true ∧
    (demo.queue .A).records.length = 1 := by decide
theorem test_records_read :
    demo.objectBytes .A 12 0 0 =
      some (recOf [0, 0, 0, 0, 255, 0, 255, 255, 3, 232, 3, 232, 2, 0, 255, 255, 0, 0, 0, 0]) ∧
    (holding .A false demo).objectBytes .A 19 0 1 = some (recOf [3, 1, 0, 0, 3, 232, 0, 0]) ∧
    demo.objectBytes .A 8 0 3 = none ∧
    (waitingSet demo).objectBytes .A 22 0 11 =
      some (recOf [255, 255, 255, 255, 0, 0, 0, 0, 0, 0, 0, 0, 0, 0, 0, 0]) := by decide
theorem meets_set_seat :
    (hdr 0 0 2).records ≠ 1 ∧ wordAt (recOf [2, 89, 0, 0]) 0 = 601 ∧
    wordAt (recOf [2, 88, 63, 255]) 0 = 600 ∧ wordAt (recOf [0, 0, 0, 0]) 0 = 0 ∧
    ({ inFrame .A demo with now := 1000 } : State).tenths = 10 ∧
    wordAt (recOf [0, 1, 0, 0]) 0 = 1 ∧ ((inFrame .A demo).port .A).silent = false := by decide
theorem meets_set_seat_while_silent :
    (({ (inFrame .A demo).setPort .A { (inFrame .A demo).port .A with silent := true } with
        now := 1000 } : State).port .A).silent = true ∧
    (10 * wordAt (recOf [0, 1, 0, 0]) 0 ≤ ({ inFrame .A demo with now := 1000 } : State).tenths) := by
  decide
theorem meets_silence : (demo.port .A).silent = false ∧ (demo.port .A).deadline = some 100 ∧
    100 ≤ ({ demo with now := 10000 } : State).tenths ∧
    ((handed 0 .A demo).channel 0).hand = some { seat := .A, level := 500 } ∧
    ((holding .A false demo).edit 0).holder = some .A ∧
    (∀ c ∈ ((claiming [claimOf 5 .floor 2] demo).arbiter 0).claims, c.seat = .A ∧ c.kept = false) := by
  decide

/-- A queue with some records. -/
def queueOf (n : Nat) (overflowed : Bool) : EventQueue :=
  { records := List.replicate n { event := .storeDone, seq := 0, time := 0 }, seq := 65535,
    overflowed := overflowed, mask := 0x3FFE#16, attention := true }

theorem meets_placing : (Event.meterFlags 0 true true).keptOut (queueOf 3 false).mask = true ∧
    (Event.storeDone).keptOut (queueOf 3 false).mask = false ∧
    (queueOf 30 false).records.length < 31 ∧ 31 ≤ (queueOf 31 false).records.length ∧
    (queueOf 31 true).overflowed = true ∧ (queueOf 3 false).seq + 1 = 65536 := by decide
theorem meets_pop : (queueOf 3 false).records = { event := .storeDone, seq := 0, time := 0 } ::
      List.replicate 2 { event := .storeDone, seq := 0, time := 0 } ∧
    (queueOf 1 true).pop.attention = false ∧ (queueOf 1 true).pop.overflowed = true ∧
    ({ queueOf 0 true with
        records := [{ event := .overflow 3, seq := 0, time := 0 }] } : EventQueue).pop.overflowed =
      false := by decide
theorem meets_queues : QueuesWf State.reset := by
  intro seat
  cases seat <;>
    exact ⟨_, none, (List.append_nil _).symm, by decide, by decide, by decide, by decide, by decide,
      by decide⟩
theorem meets_invariants : GrantsWf State.reset ∧ TripsWf State.reset ∧ UpdatesWf State.reset ∧
    RingsWf State.reset ∧ TripsWf demo ∧ UpdatesWf demo ∧ GrantsWf demo ∧ RingsWf demo ∧
    step State.reset = .next (idle State.reset) := by
  refine ⟨?_, ?_, ?_, ?_, ?_, ?_, ?_, ?_, rfl⟩ <;>
    first
      | (unfold GrantsWf; decide)
      | (unfold TripsWf; decide)
      | (unfold UpdatesWf; decide)
      | (unfold RingsWf; decide)
theorem meets_quota_and_misses : ClaimsWf State.reset ∧ MissesWf State.reset := by
  constructor
  · intro p seat
    revert p
    cases seat <;> decide
  · unfold MissesWf
    decide
theorem meets_grants :
    (hdr 0 0 0).portals = [] ∧ (hdr 15 0 0).portals = [0, 1, 2, 3] ∧
    (hdr 3 0 0).portals.find? ((holding .B false demo).heldByOther .A) = some 0 ∧
    (∀ p ∈ (hdr 3 0 0).portals, ∀ x, ((holding .A false demo).edit p).holder = some x → x = .A) ∧
    ((hdr 3 0 0).portals.find? fun q => !(holding .A false demo).holdsGrant .A q) = some 1 ∧
    (∀ p ∈ (hdr 1 0 0).portals, ((holding .A false demo).edit p).holder = some .A) := by decide
theorem meets_write_headers : (hdr 15 0 1).cls = 15 ∧ (hdr 20 0 1).cls = 20 ∧
    (hdr 146 0 1).cls = 18 ∧ (hdr 146 0 1).owner = 4 ∧ (hdr 18 11 1).index = 11 ∧
    (hdr 19 15 1).index = 15 ∧ (hdr 16 4 1).index = 4 ∧ (hdr 114 0 1).owner = 3 := by decide
theorem meets_write_records :
    WriteRecordAt (.write .A (hdr 17 0 1) (recOf [4, 0])) .A (transfer 17 0 1 .ascend) (recOf [4, 0])
      (inFrame .A demo) ∧
    WriteRecordAt (.writeRecord .A (recOf [4, 0])) .A (transfer 17 0 2 .hold) (recOf [4, 0])
      (inPhase .A (.writing (transfer 17 0 2 .hold)) demo) := by
  refine ⟨⟨by decide, Or.inl ⟨hdr 17 0 1, rfl, by decide, rfl⟩⟩, ⟨by decide, Or.inr ⟨rfl, rfl⟩⟩⟩
theorem meets_write_effects :
    (holding .A false demo).edit 0 =
      { holder := some .A, shadow := some { set := demoSet, locked := false }, pendingSet := none } ∧
    demoSet.writeRecord (transfer 17 0 1 .ascend) (recOf [12, 0]) =
      some { demoSet with stageCount := 12 } ∧
    demoSet.writeRecord (transfer 17 0 1 .ascend) (recOf [13, 0]) = none ∧
    demoSet.writeRecord (transfer 17 0 1 .ascend) (recOf [0, 0]) = none ∧
    ((holding .A true demo).edit 0).shadow = some { set := demoSet, locked := true } := by decide
theorem meets_written_portals :
    (2 : Fin 4).val = (transfer 16 2 1 .ascend).index ∧
    (3 : Fin 4).val = ({ transfer 19 15 1 .ascend with owner := 3 } : Transfer).owner := by decide
theorem meets_written_ranges :
    (stageRowOf (recOf [117, 48, 117, 47, 3, 132, 3, 232, 0, 0, 0, 0, 0, 0, 0, 0])).isSome = true ∧
    (stageRowOf (recOf [117, 49, 0, 0, 0, 0, 0, 0, 0, 0, 0, 0, 0, 0, 0, 0])) = none ∧
    (channelSlotOf (recOf [1, 31, 7, 0, 3, 232, 1, 44])).isSome = true ∧
    (channelSlotOf (recOf [3, 31, 0, 0, 1, 44, 0, 0])) = none ∧
    (channelSlotOf (recOf [1, 32, 0, 0, 0, 0, 0, 0])) = none ∧
    (portalRecordOf (recOf
      [13, 1, 0, 255, 60, 8, 5, 10, 0, 120, 0, 200, 0, 20, 1, 144, 0, 0, 0, 0, 0, 0, 0, 0])).isSome =
      true := by decide
theorem meets_written_fields :
    (∃ r, stageRowOf (recOf [117, 48, 255, 255, 3, 132, 3, 232, 0, 0, 0, 0, 0, 0, 0, 7]) = some r ∧
      r.rise = some 30000 ∧ r.fall = none ∧ r.dwell = 900 ∧ rd r.levels 0 = 1000 ∧ rd r.levels 4 = 7) ∧
    channelSlotOf (recOf [3, 31, 4, 0, 3, 232, 0, 0]) =
      some (some { channel := 31, zone := some 4, switched := true, failLevel := 1000, minLevel := 0 }) ∧
    channelSlotOf (recOf [2, 40, 6, 0, 9, 9, 9, 9]) = some none ∧
    portalRecordOf (recOf
      [13, 1, 7, 8, 60, 8, 5, 10, 0, 120, 0, 200, 0, 20, 1, 144, 0, 0, 0, 0, 0, 0, 0, 0]) = none ∧
    (∃ r, portalRecordOf (recOf
      [15, 33, 7, 255, 150, 16, 30, 50, 2, 88, 3, 232, 0, 10, 1, 244, 0, 0, 0, 0, 0, 0, 0, 1]) = some r ∧
      r.slot0 = some 7 ∧ r.k = 150 ∧ r.window = 16 ∧ r.tStale = 30 ∧ r.overlap = 50 ∧ r.tHold = 600 ∧
      r.upRate = 1000 ∧ r.downRate = 10 ∧ rd r.boost 4 = 1) := by
  refine ⟨⟨_, rfl, ?_⟩, by decide, by decide, by decide, ⟨_, rfl, ?_⟩⟩ <;> decide

/-- The value that the validation of a COMMIT of P0 gives a shadow, with P1 holding a set. -/
def valueOf (x : PortalSet) (other : PortalSet) : Option Nat :=
  ({ (holding .A false demo).setEdit 0
      { holder := some .A, pendingSet := none, shadow := some { set := x, locked := false } } with
    active := wr demo.active 1 other } : State).validation [0]

/-- The demonstration set with another record, other rows, or other channel slots. -/
def withRecordOf (r : PortalRecord) : PortalSet := { demoSet with record := r }

/-- The demonstration set with a channel slot replaced. -/
def withSlot (a : Fin 16) (x : Option ChannelRecord) : PortalSet :=
  { demoSet with slots := wr demoSet.slots a x }

theorem test_validation_of_records :
    valueOf demoSet PortalSet.default = none ∧
    valueOf (withRecordOf { demoSet.record with zones := Vector.replicate 5 false })
      PortalSet.default = some (1 * 256) ∧
    valueOf (withRecordOf { demoSet.record with enabled := false }) PortalSet.default =
      some (2 * 256) ∧
    valueOf (withRecordOf { demoSet.record with enabled := false, zones := Vector.replicate 5 false })
      PortalSet.default = some (3 * 256) ∧
    valueOf (withRecordOf { demoSet.record with slot1 := some 0 }) PortalSet.default =
      some (4 * 256 + 1) ∧
    valueOf (withRecordOf { demoSet.record with boost := wr demoSet.record.boost 3 1 })
      PortalSet.default = some (5 * 256 + 3) := by decide
theorem test_validation_of_rows :
    (let rows (i : Fin 12) (r : StageRow) : PortalSet := { demoSet with rows := wr demoSet.rows i r }
     valueOf (rows 0 (demoRow (some 1) none 0 40)) PortalSet.default = some (20 * 256) ∧
     valueOf (rows 2 (demoRow none (some 700) 0 1000)) PortalSet.default = some (21 * 256 + 2) ∧
     valueOf (rows 1 (demoRow (some 200) (some 200) 0 350)) PortalSet.default = some (22 * 256 + 1) ∧
     valueOf (rows 2 (demoRow (some 300) (some 210) 0 350)) PortalSet.default = some (23 * 256 + 2) ∧
     valueOf (rows 2 (demoRow (some 310) (some 200) 0 350)) PortalSet.default = some (24 * 256 + 2) ∧
     valueOf (rows 0 { demoRow none none 0 40 with levels := wr (demoRow none none 0 40).levels 2 1 })
       PortalSet.default = some (27 * 256) ∧
     valueOf (rows 2 (demoRow (some 1000) (some 700) 0 349)) PortalSet.default =
       some (30 * 256 + 2)) := by decide
theorem test_validation_of_slots :
    valueOf { PortalSet.default with slots := demoSet.slots } PortalSet.default = some (41 * 256) ∧
    valueOf (withSlot 7 (some { lampC0 with channel := 9, zone := some 1 })) PortalSet.default =
      some (42 * 256 + 7) ∧
    valueOf (withSlot 7 (some lampC0)) PortalSet.default = some (43 * 256 + 7) ∧
    valueOf (withSlot 0 none) PortalSet.default = some (44 * 256) ∧
    valueOf (withSlot 1 none) PortalSet.default = some (45 * 256) ∧
    valueOf { withRecordOf { demoSet.record with boost := Vector.replicate 5 0 } with
      slots := demoSet.slots } PortalSet.default = some (46 * 256 + 1) ∧
    valueOf (withSlot 9 (some { lampC1 with channel := 9 })) PortalSet.default =
      some (47 * 256 + 9) := by decide
theorem test_validation_against_other_portals :
    valueOf demoSet demoSet = some (60 * 256) ∧
    valueOf demoSet { demoSet with slots := Vector.replicate 16 none } = some (62 * 256) ∧
    (let both (x y : PortalSet) : Option Nat :=
      (((holding .A false State.reset).setEdit 0
        { holder := some .A, pendingSet := none, shadow := some { set := x, locked := false } }).setEdit
        1 { holder := some .A, pendingSet := none, shadow := some { set := y, locked := false } }
        ).validation [0, 1]
     both demoSet demoSet = some (16384 + 61 * 256) ∧
     both demoSet { demoSet with
       slots := wr (wr demoSet.slots 0 (some { lampC0 with channel := 8 })) 1
         (some { lampC1 with channel := 9 }) } = some (16384 + 63 * 256)) := by decide
theorem meets_commit_checks :
    ((hdr 1 0 0).portals.find? (holding .A true demo).shadowLocked) = some 0 ∧
    ((hdr 1 0 0).portals.find? (waitingSet (holding .A false demo)).hasPending) = some 0 ∧
    (holding .A false demo).validation [0] = none ∧
    ((holding .A false demo).setEdit 0
      { holder := some .A, pendingSet := none
        shadow := some { set := { demoSet with stageCount := 4 }, locked := false } }).validation [0] =
      some (21 * 256 + 3) := by decide
theorem meets_commit : (hdr 1 0 0).portals = [0] ∧ (inFrame .A (holding .A false demo)).adoptionPoint 0 = true ∧
    (inFrame .A (zoned .ramping 350 false false false (holding .A false demo))).adoptionPoint 0 = false ∧
    (inFrame .A (zoned .ramping 350 false false false (holding .A false demo))).validation [0] = none ∧
    (waitingSet demo).hasPending 0 = true ∧ (waitingSet demo).adoptionPoint 0 = true := by decide
/-- A pending set on P0. -/
def adopting (x : PortalSet) (s : State) : State :=
  s.setEdit 0 { s.edit 0 with pendingSet := some { set := x, seat := .A, time := 0 } }

/-- The demonstration set with M2 in place of M1, the fire input active low. -/
def rebound : PortalSet :=
  withRecordOf { demoSet.record with slot1 := some 2, activeLow := true }

theorem meets_adoption :
    TripsWf (adopting rebound demo) ∧ (adopting rebound demo).adoptionPoint 0 = true ∧
    (adopting PortalSet.default demo).adoptionPoint 0 = true ∧
    (rebound.record.binds 2 = true ∧ demoSet.record.binds 2 = false ∧
      rebound.record.binds 1 = false ∧ demoSet.record.binds 1 = true ∧
      rebound.record.binds 0 = true ∧ demoSet.record.binds 0 = true ∧
      rebound.record.binds 7 = false) ∧
    ((metered .valid [reading 1 900] demo).meter 0).ring.getLast? = some (reading 1 900) ∧
    (demoSet.record.activeLow ≠ rebound.record.activeLow ∧
      (if rebound.record.activeLow then !rd demo.firePins 0 else rd demo.firePins 0) ≠
        (demo.tripUnit 0).fireLevel) ∧
    ((after (.adoption 0) (adopting rebound demo)).queue .A).overflowed = false ∧
    ((after (.adoption 0) (adopting rebound demo)).queue .A).mask.getLsbD 13 = true := by
  refine ⟨?_, by decide, by decide, by decide, by decide, by decide, by decide, by decide⟩
  unfold TripsWf
  decide
/-- The set of P0 after C0 has left or moved, or with C2 joining at address 2. -/
def channelCase (zero two : Option ChannelRecord) (five : Option ChannelRecord) : PortalSet :=
  { demoSet with slots := wr (wr (wr demoSet.slots 0 zero) 2 two) 5 five }

theorem meets_channel_cases :
    let joins := channelCase (some lampC0) (some { lampC0 with channel := 2 }) none
    let leaves := channelCase none (some { lampC0 with channel := 2 }) none
    let replaced := channelCase none none (some lampC0)
    let moved := channelCase (some { lampC0 with zone := none }) none none
    (∀ x ∈ [joins, leaves, replaced, moved, demoSet],
      (adopting x demo).adoptionPoint 0 = true ∧
      ∀ k ∈ x.circuits 0, ∀ j ∈ x.circuits 0, j.cfg.channel = k.cfg.channel → j = k) ∧
    joins.circuits 0 = [circuit0, circuit1, { portal := 0, addr := 2, cfg := { lampC0 with channel := 2 } }] ∧
    (∀ k ∈ leaves.circuits 0, k.cfg.channel ≠ 0) ∧
    replaced.circuits 0 = [circuit1, { portal := 0, addr := 5, cfg := lampC0 }] ∧
    moved.circuits 0 = [{ portal := 0, addr := 0, cfg := { lampC0 with zone := none } }, circuit1] ∧
    (demo.lampLine 0).carries 0 0 = true ∧ (demo.lampLine 0).carries 5 0 = false ∧
    (enterTrip 0 demo).tripped 0 = true ∧
    (adopting joins (enterTrip 0 demo)).adoptionPoint 0 = true := by decide
/-- P0 TRIPPED by LINE. -/
def lineTripped : State :=
  recompute 0 (demo.setTrip 0 { demo.tripUnit 0 with lineDown := true })

/-- P0 with its fire input debounced ACTIVE and FIRE not armed. -/
def unarmed : State :=
  { demo.setTrip 0 { demo.tripUnit 0 with debounced := true } with
    active := wr demo.active 0 (withRecordOf { demoSet.record with fireArmed := false }) }

/-- The demonstration set with TH2 present too. -/
def widened : PortalSet :=
  withRecordOf { demoSet.record with zones := wr demoSet.record.zones 1 true }

theorem meets_adopted_zones :
    (TripsWf lineTripped ∧ TripsWf unarmed) ∧
    ((after (.adoption 0) (adopting demoSet demo)).tripped 0 = false ∧
      (demo.zone 0 0).map Zone.state = some .steady) ∧
    ((after (.adoption 0) (adopting widened lineTripped)).tripped 0 = true ∧
      (lineTripped.zone 0 0).map Zone.state = some .held ∧ lineTripped.zone 0 1 = none) ∧
    (unarmed.tripped 0 = false ∧ (after (.adoption 0) (adopting widened unarmed)).tripped 0 = true) ∧
    (lineTripped.tripped 0 = true ∧
      (after (.adoption 0) (adopting
        { widened with record := { widened.record with lineArmed := false } } lineTripped)).tripped 0 =
        false) ∧
    (State.reset.zone 0 0 = none ∧
      (after (.adoption 0) (adopting demoSet State.reset)).tripped 0 = false) := by
  refine ⟨⟨?_, ?_⟩, by decide, by decide, by decide, by decide, by decide⟩ <;>
    (unfold TripsWf; decide)
theorem test_adoption_releases_hand_and_holds_new_zones :
    (((after (.adoption 0) (adopting (channelCase none none (some lampC0)) (handed 0 .B demo))).queue
      .B).records.any fun r => r.event == .handReleased 0 0 .adoption) = true ∧
    ((after (.adoption 0) (adopting widened lineTripped)).zone 0 1).map Zone.state = some .held ∧
    ((after (.adoption 0) (adopting rebound demo)).queue .B).records.map EventRecord.event =
      [.restarted .powerOn, .meterState 0 1 .unbound .starting .unused,
       .meterState 0 2 .bound .unused .starting, .adopted 0 .A] := by decide
/-- P0 and P1 in the grant of Seat A, P0 with a ramping zone. -/
def holdingTwo : State :=
  (zoned .ramping 350 false false false (holding .A false demo)).setEdit 1
    { holder := some .A, shadow := some { set := PortalSet.default, locked := false }
      pendingSet := none }

theorem meets_commit_of_several :
    (hdr 3 0 0).portals = [0, 1] ∧ (inFrame .A holdingTwo).adoptionPoint 0 = false ∧
    (inFrame .A holdingTwo).adoptionPoint 1 = true ∧
    (inFrame .A holdingTwo).validation [0, 1] = none ∧
    ((after (.commit .A (hdr 3 0 0)) (inFrame .A holdingTwo)).port .A).value = 2 ∧
    ((after (.commit .A (hdr 3 0 0)) (inFrame .A holdingTwo)).port .A).condition.p = true := by decide
theorem meets_store : (∀ p, ((inFrame .A demo).edit p).holder ≠ some .A) ∧
    (∃ p, ((holding .A false demo).edit p).holder = some .A) ∧ demo.storing = none ∧
    (∀ w : StoreWrite, ({ demo with storing := some w } : State).storing ≠ none) := by
  refine ⟨by decide, ⟨0, by decide⟩, by decide, fun _ => by simp⟩

/-- Claims of every kind on P0. -/
def everyKind : List Claim :=
  [claimOf 1 .floor 2, claimOf 2 .cap 1, claimOf 3 .force 11,
   { claimOf 4 .freeze 0 with argument := none, captured := some 1 }, claimOf 5 .inject 4000]

theorem meets_resolution :
    ((claiming everyKind demo).arbiter 0).stack.map Claim.number = some 4 ∧
    ((claiming (everyKind.take 3) demo).arbiter 0).stack.map Claim.number = some 3 ∧
    ((claiming everyKind demo).arbiter 0).cap < ((claiming everyKind demo).arbiter 0).floor ∧
    ((claiming everyKind demo).arbiter 0).resolved = 2 ∧
    ((claiming [claimOf 2 .cap 1] demo).arbiter 0).resolved ≠
      ((claiming [claimOf 2 .cap 1] demo).arbiter 0).effective := by decide
theorem meets_push_checks :
    byteAt (recOf [5, 0, 0, 0, 0, 0, 0, 0]) 0 = 5 ∧ wordAt (recOf [0, 0, 0, 12, 0, 0, 0, 0]) 2 = 12 ∧
    wordAt (recOf [4, 0, 78, 33, 0, 0, 1, 0]) 2 = 20001 ∧ bitAt (recOf [4, 1, 0, 0, 0, 0, 1, 0]) 1 0 = true ∧
    tripleAt (recOf [0, 0, 0, 0, 1, 81, 129, 0]) 4 = 86401 ∧
    tripleAt (recOf [4, 0, 0, 0, 0, 14, 17, 0]) 4 = 3601 ∧
    ((hdr 1 0 1).portals.find? fun q => decide (4 ≤ (((claiming
      [claimOf 1 .cap 1, claimOf 2 .cap 1, claimOf 3 .cap 1, claimOf 4 .cap 1] demo).arbiter q).claims.filter
      fun c => c.seat == Seat.A).length)) = some 0 := by decide
theorem meets_push :
    (∀ i : Fin 5, ([ClaimKind.force, .floor, .cap, .freeze, .inject] : List ClaimKind)[byteAt
      (recOf [i.val, 0, 0, 11, 0, 0, 1, 0]) 0]? ≠ none) ∧
    wordAt (recOf [1, 1, 0, 11, 1, 81, 128, 0]) 2 = 11 ∧
    tripleAt (recOf [1, 1, 0, 11, 1, 81, 128, 0]) 4 = 86400 ∧
    tripleAt (recOf [4, 0, 78, 32, 0, 14, 16, 0]) 4 = 3600 ∧
    (∀ p ∈ (hdr 3 0 1).portals,
      ((demo.arbiter p).claims.filter fun c => c.seat == Seat.A).length < 4) ∧
    1 ≤ demo.claimCounter ∧ demo.claimCounter ≤ 65535 ∧
    ([ClaimKind.force, .floor, .cap, .freeze, .inject] : List ClaimKind)[byteAt
      (recOf [4, 0, 78, 32, 0, 14, 16, 0]) 0]? = some .inject := by decide
theorem test_push_takes_the_first_free_number :
    ({ claiming [claimOf 65535 .cap 1, claimOf 1 .cap 1] demo with claimCounter := 65535 } :
      State).allocate 65535 49 = 2 ∧
    ((after (.pushClaim .A (hdr 1 0 1) (recOf [1, 1, 0, 11, 1, 81, 128, 0])) (inFrame .A demo)).arbiter
      0).claims =
      [{ number := 1, seat := .A, kind := .floor, argument := some 11, captured := none, kept := true,
         deadline := some 864000, pushedAt := 0 }] := by decide
theorem meets_withdraw :
    (∃ c ∈ ((claiming everyKind demo).arbiter 0).claims, c.number = 5 ∧ c.seat = .A) ∧
    (∀ p, ∀ c ∈ ((claiming everyKind demo).arbiter p).claims, c.number ≠ 6) ∧
    (∀ p, ∀ c ∈ ((claiming everyKind demo).arbiter p).claims, c.number = 5 → c.seat ≠ .B) ∧
    (claiming [claimOf 2 .cap 2] demo).holders 2 = [0] := by decide

/-- P0 with an older and a newer INJECT claim below a CAP. -/
def injecting : State :=
  claiming [claimOf 2 .inject 900, claimOf 3 .inject 800, claimOf 4 .cap 2] { demo with now := 500 }

/-- The claims that leave: the topmost INJECT claim while an older one remains, both, or the older one. -/
theorem meets_injections :
    let claims := (injecting.arbiter 0).claims
    let topmost (l : List Claim) : Option Claim := l.reverse.find? fun c => c.kind == .inject
    let goes (l : List Nat) (c : Claim) : Bool := l.contains c.number
    ((topmost claims).any (goes [3]) = true ∧
      topmost (claims.filter fun c => !goes [3] c) = some (claimOf 2 .inject 900)) ∧
    ((topmost claims).any (goes [2, 3]) = true ∧ topmost (claims.filter fun c => !goes [2, 3] c) = none) ∧
    (topmost claims).any (goes [2]) = false := by decide
theorem meets_expiry :
    ((claiming [claimOf 2 .cap 2, claimOf 3 .cap 2] demo).arbiter 0).claims =
      [] ++ claimOf 2 .cap 2 :: [claimOf 3 .cap 2] ∧ (claimOf 2 .cap 2).deadline = some 5 ∧
    5 ≤ ({ demo with now := 500 } : State).tenths ∧ (∀ x ∈ [claimOf 3 .cap 2], x.number ≠ 2) ∧
    (∀ x ∈ [claimOf 4 .cap 2], x.kind ≠ .inject) ∧ (claimOf 3 .inject 800).kind = .inject ∧
    (let early : State := { injecting with now := 499 }
     ∀ c ∈ (early.arbiter 0).claims, c.number = 3 → ∀ d ∈ c.deadline, early.tenths < d) := by decide
theorem meets_offers :
    ((demo.set 0).row 2).rise = some 1000 ∧ ((demo.set 0).row 1).rise = some 300 ∧
    ((demo.set 0).row 1).fall = some 200 ∧ (demo.set 0).stageCount = 3 ∧
    ((following 1 100 demo).selector 0).automatic = 1 ∧
    (following 1 199 demo).undercuts 0 = true ∧ (following 1 200 demo).undercuts 0 = false ∧
    ((following 1 199 demo).selector 0).dwell = some 0 := by decide
theorem meets_estimates :
    readingFrameOf frame9 =
      some { seq := 9, luminance := 1000, window := false, heater := false, sensor := false } ∧
    demo.meterPortal 0 = some 0 ∧
    ((metered .starting [reading 1 900, reading 2 1100] demo).meter 0).duplicates 9 = false ∧
    ((metered .valid [reading 1 900, reading 2 1100, reading 3 800] demo).meter 0).estimate = some 900 ∧
    ((metered .valid [reading 9 900] demo).meter 0).duplicates 9 = true := by decide
theorem test_frames_of_received_bytes :
    ((wire frame9).frame false).bind readingFrameOf =
      some { seq := 9, luminance := 1000, window := false, heater := false, sensor := false } ∧
    ({ wire frame9 with silence := false } : Burst).frame false = none ∧
    ({ wire frame9 with silence := false } : Burst).frame true = some frame9 ∧
    ((wire frame9.tail).frame false).bind readingFrameOf = none ∧
    ((wire (frame9 ++ [0#8])).frame false).bind readingFrameOf = none ∧
    (wire []).frame true = none := by decide
theorem meets_reading_classes :
    readingFrameOf (recOf [9, 3, 232, 0, 13]) = none ∧ readingFrameOf (recOf [9, 3, 232, 0]) = none ∧
    (readingFrameOf frameSensor).map ReadingFrame.sensor = some true ∧
    (readingFrameOf frameRange).map ReadingFrame.luminance = some 20001 ∧
    State.reset.meterPortal 0 = none ∧ (demo.meter 0).state = .starting ∧
    ((metered .stale [] demo).meter 0).state = .stale ∧
    ((metered .faulted [] demo).meter 0).state = .faulted := by decide
/-- P0 LIVE on a VALID M0 whose deadline is due, with M1 VALID or not. -/
def goingStale (both : Bool) : State :=
  let one := (metered .valid [reading 1 900] demo).setEval 0 { demo.eval 0 with source := .live }
  if both then one.setMeter 1 (one.meter 0) else one

theorem meets_stale :
    (goingStale false).meterPortal 0 = some 0 ∧ ((goingStale false).meter 0).staleDeadline = some 0 ∧
    0 ≤ (goingStale false).tenths ∧ ((goingStale false).meter 0).state = .valid ∧
    ((goingStale false).eval 0).source = .live ∧
    ((goingStale false).setMeter 0
      { (goingStale false).meter 0 with state := .stale }).validEstimates 0 = [] ∧
    ((goingStale true).setMeter 0
      { (goingStale true).meter 0 with state := .stale }).validEstimates 0 = [900] ∧
    ((metered .starting [] demo).meter 0).state = .starting ∧
    (metered .starting [] demo).meterPortal 0 = some 0 ∧
    ((metered .starting [] demo).meter 0).staleDeadline = some 0 := by decide
theorem meets_best_estimates :
    (goingStale true).bestEstimate 0 = 900 ∧ ((goingStale true).record 0).slot0 = some 0 ∧
    ((goingStale true).meter 1).state = .valid ∧ demo.bestEstimate 0 = 0 := by decide
theorem meets_evaluation : demo.baseOf 0 = .starting ∧ demo.baseOf 1 ≠ .starting ∧
    ((claiming everyKind demo).arbiter 0).topInject.map Claim.number = some 5 ∧
    (demo.arbiter 0).topInject = none := by decide

/-- P0 RUNNING in HOLD with an expired hold timer. -/
def inHold : State :=
  { (demo.setBase 0 .running).setEval 0
      { demo.eval 0 with source := .hold, status := .hold, holdSince := some 0 } with now := 120000 }

theorem meets_hold : (inHold.eval 0).source = .hold ∧ inHold.holdEnd 0 = some 120000 ∧
    120000 ≤ inHold.now ∧ (inHold.eval 0).status = .hold ∧ (inHold.arbiter 0).topInject = none ∧
    inHold.baseOf 0 = .running ∧ (inHold.record 0).slot0 = some 0 ∧ (inHold.record 0).slot1 = some 1 ∧
    (inHold.setEval 0 { inHold.eval 0 with mismatchSince := some 90000 }).mismatchEnd 0 =
      some 120000 ∧
    (let low : Arbiter := { inHold.arbiter 0 with automatic := 2, top := (inHold.set 0).top }
     low.resolved = low.effective ∧ low.resolved ≠ 1) := by decide
theorem meets_adoption_sources :
    inHold.baseOf 0 = .running ∧ (inHold.eval 0).source = .hold ∧
    (inHold.eval 0).holdSince = some 0 ∧ (adopting rebound inHold).adoptionPoint 0 = true ∧
    demo.baseOf 1 = .unconfigured ∧
    ((adopting rebound (State.reset)).adoptionPoint 0 = true ∧
      State.reset.baseOf 0 = .unconfigured ∧ (State.reset.arbiter 0).topInject = none) ∧
    demo.baseOf 0 ≠ .unconfigured ∧ PortalSet.default.record.enabled = false := by decide

/-- P0 STARTING on a LIVE source, both its meters VALID, M1 at 900 and M0 as given. -/
def starting (e : Nat) : State :=
  let one := (metered .valid [reading 1 900] demo).setEval 0 { demo.eval 0 with source := .live }
  let two := one.setMeter 1 (one.meter 0)
  two.setMeter 0 { two.meter 0 with estimate := some e }

theorem meets_evaluation_clauses :
    (starting 900).baseOf 0 = .starting ∧ ((evaluate 0 (starting 900)).eval 0).status = .live ∧
    (((starting 1201).meter 0).state = .valid ∧ ((starting 1201).meter 1).state = .valid ∧
      1201 < 4 * (1201 - 900) ∧ ¬ 1200 < 4 * (1200 - 900)) ∧
    ((evaluate 0 demo).eval 0).status = .none ∧ demo.baseOf 0 ≠ .running ∧
    ((evaluate 0 inHold).eval 0).status = .hold ∧ (inHold.eval 0).status ≠ .lost ∧
    (let lost : State := inHold.setEval 0 { inHold.eval 0 with source := .lost, holdSince := none }
     ((evaluate 0 lost).eval 0).status = .lost ∧
     (let back : State := inHold.setEval 0 { inHold.eval 0 with status := .lost }
      ((evaluate 0 back).eval 0).status = .hold ∧ (back.eval 0).status = .lost)) := by decide
theorem meets_plans : demo.boostShare 0 0 = 400 ∧ demo.boostShare 1 0 = 0 ∧
    needsBoost 400 600 = false ∧ needsBoost 400 601 = true ∧
    circuit0 ∈ demo.dimmed 0 0 ∧ (demo.set 0).switchedOf 0 0 = some circuit1 ∧
    rampDone 0 0 (steer 0 0 1000 demo) = true ∧ rampDone 0 0 (steer 0 0 66 demo) = false ∧
    rampDone 0 0 demo = true := by decide
theorem meets_zone_states :
    ((zoned .overlapOn 650 true true false demo).zone 0 0).map Zone.state = some .overlapOn ∧
    ((zoned .boostOffPrep 350 true true false demo).zone 0 0).map Zone.overlap = some (some 0) ∧
    ((zoned .boostOnWait 650 true false true demo).zone 0 0).map Zone.confirm = some (some 0) := by
  decide
theorem meets_channels : demo.requested 0 = some circuit0 ∧ demo.requested 31 = none ∧
    demo.requested 32 = none ∧ (demo.channel 0).hand = none ∧
    ((handed 0 .B demo).channel 0).hand = some { seat := .B, level := 500 } ∧
    wordAt (recOf [0, 0, 0, 99]) 2 = 99 ∧ wordAt (recOf [0, 0, 3, 233]) 2 = 1001 ∧
    (enterTrip 0 demo).tripped 0 = true ∧ demo.tripped 0 = false := by decide
theorem meets_returns_to_a_waiting_zone :
    (let s := zoned .boostOnWait 650 true false false (handed 0 .A demo)
     (s.zone 0 0).map Zone.state = some .boostOnWait ∧ s.requested 0 = some circuit0 ∧
      (after (.releaseChannel .A (hdr 0 0 1) (recOf [0, 0, 0, 0])) (inFrame .A (s.setChannel 0
        { s.channel 0 with level := some 50 }))).channel 0 =
        { hand := none, level := some 50, target := some 100, farewell := none }) ∧
    ((handed 1 .A demo).channel 1).hand = some { seat := .A, level := 500 } ∧
    demo.requested 1 = some circuit1 := by decide
theorem meets_ramp : demo.assignment 0 = some circuit0 ∧ (demo.channel 0).level = some 1000 ∧
    (demo.channel 0).target = some 1000 ∧ (demo.channel 2).level = none ∧ RampMove demo 0 = none := by
  decide

/-- P0 with C0 in AUTO on the way from one level to a target, its zone TH1 in a state. -/
def ramping (state : ZoneState) (level target : Nat) : State :=
  let s := zoned state 350 true false false demo
  s.setChannel 0 { s.channel 0 with level := some level, target := some target }

theorem meets_ramp_landings :
    RampMove (ramping .boostOffPrep 995 1000) 0 = some (circuit0, 1000) ∧
    RampMove (ramping .ramping 0 1000) 0 = some (circuit0, 100) ∧
    circuit0 ∈ (ramping .ramping 0 1000).dimmed 0 0 ∧
    (∀ k ∈ (ramping .ramping 0 1000).dimmed 0 0, k = circuit0) ∧
    ((ramping .ramping 0 1000).lampLine 0).carries 0 0 = true := by decide
/-- P0 with its fire input level ACTIVE and the debounce due. -/
def firing : State := demo.setTrip 0 { demo.tripUnit 0 with fireLevel := true, debounce := some 0 }

theorem meets_fire : rd demo.firePins 0 ≠ true ∧ TripsWf firing ∧
    (firing.tripUnit 0).debounce = some 0 ∧ 0 ≤ firing.now ∧ (firing.tripUnit 0).fireLevel = true ∧
    (firing.record 0).fireArmed = true ∧ firing.baseOf 0 ≠ .unconfigured ∧
    (firing.tripUnit 0).fireLatch = none := by
  refine ⟨by decide, ?_, by decide, by decide, by decide, by decide, by decide, by decide⟩
  unfold TripsWf
  decide

/-- P0 tripped by ORDER. -/
def ordered : State := orderTrip .A 7 0 demo

theorem meets_trips : TripsWf ordered ∧ (ordered.tripUnit 0).orderLatch.isSome = true ∧
    demo.baseOf 1 = .unconfigured ∧ (∀ p ∈ (hdr 1 0 1).portals, demo.baseOf p ≠ .unconfigured) ∧
    (∃ p ∈ (hdr 2 0 1).portals, demo.baseOf p = .unconfigured) ∧
    bitAt (recOf [2, 0]) 0 1 = true ∧ bitAt (recOf [3, 0]) 0 0 = true ∧
    ((ordered.setTrip 0 { ordered.tripUnit 0 with fireLatch := some 0, debounced := true }).fireActive
      0) = true := by
  refine ⟨?_, by decide, by decide, by decide, by decide, by decide, by decide, by decide⟩
  unfold TripsWf
  decide
/-- P0 TRIPPED by ORDER, its latch just cleared. -/
def clearing : State :=
  ordered.setTrip 0 { ordered.tripUnit 0 with orderLatch := none, sources := TripSet.empty }

theorem meets_trip_exit :
    clearing.tripped 0 = true ∧ clearing.sourcesOf 0 = TripSet.empty ∧
    (∃ zn ∈ clearing.zone 0 0, zn =
      { state := .held, working := zn.working, latest := none, switched := zn.switched,
        confirmed := false, overlap := none, confirm := none, degraded := false }) ∧
    (clearing.set 0).circuits 0 = [circuit0, circuit1] ∧
    ((handed 0 .A clearing).channel 0).hand.isSome = true ∧
    ((hdr 1 0 1).portals = [0] ∧ ordered.tripped 0 = true ∧ (ordered.tripUnit 0).fireLatch = none ∧
      (ordered.tripUnit 0).orderLatch ≠ none ∧ ordered.linePresent 0 = false) := by
  refine ⟨by decide, by decide, ⟨_, rfl, by decide⟩, by decide, by decide, by decide⟩
theorem test_trip_exit_returns_hand_levels :
    ((exitTrip 0 (handed 0 .A clearing)).channel 0).level = some 500 ∧
    ((exitTrip 0 clearing).zone 0 0).map Zone.state = some .boostOnWait := by decide
theorem meets_lines : (demo.lampLine 0).tx = none ∧ (demo.lampLine 0).updates.length = 2 ∧
    ((beginTransactions demo).lampLine 0).tx.isSome = true ∧ (demo.lampLine 1).updates = [] ∧
    (∀ a, rd (demo.lampLine 1).stations a = none) ∧ (demo.lampLine 0).cursor = 15 ∧
    (rd (demo.lampLine 0).stations 0).isSome = true ∧ (0 : Fin 16).val = (15 + 1 + 0) % 16 := by decide
/-- The POLL of address 0 with its window open to 5 ms. -/
def poll0 : Transaction :=
  { level := none, addr := 0, channel := some 0, departing := none, frame := [],
    phase := .window 5 false }

theorem meets_replies :
    (statusFrameOf status0).map StatusFrame.addr = some 0 ∧
    (statusFrameOf status1).map StatusFrame.closed = some true ∧
    statusFrameOf (recOf [48, 1, 244, 0, 0]) = none ∧
    (∀ n : Fin 4, ((windowed none 0 0 n.val demo).lampLine 0).tx = some poll0 ∧
      (windowed none 0 0 n.val demo).now ≤ 5 ∧
      5 ≤ ({ windowed none 0 0 n.val demo with now := 5 } : State).now ∧
      (windowed none 0 0 n.val demo).txTarget 0 poll0 =
        some (circuit0, { channel := 0, misses := n.val, status := none })) ∧
    ((windowed (some 7) 1 1 0 demo).lampLine 0).waits 1 = false ∧
    ((windowed (some 7) 1 1 0 demo).channel 1).level = some 1000 ∧
    (((windowed none 0 0 0 demo).setLine 0
      (((windowed none 0 0 0 demo).lampLine 0).enter 0 5 0)).lampLine 0).waits 0 = true := by decide
theorem meets_reply_frames :
    (((wire status0).frame true).bind statusFrameOf).map StatusFrame.addr = some poll0.addr ∧
    (({ wire status0 with silence := false } : Burst).frame (!true)).bind statusFrameOf = none ∧
    (((wire status1).frame false).bind statusFrameOf).any (fun f => f.addr != poll0.addr) = true ∧
    ((beginTransactions demo).lampLine 0).tx.map Transaction.phase = some (.sending 10) ∧
    (demo.lampLine 0).tx = none ∧ 5 < ({ demo with now := 6 } : State).now ∧
    (statusFrameOf (recOf [48, 1, 244, 3, 216])).map (fun f => (f.lamp, f.supply)) =
      some (true, true) := by decide
theorem test_line_frames :
    levelFrame 3 500 = recOf [19, 1, 244, 248] ∧ pollFrame 15 = recOf [47, 209] ∧
    readingFrameOf (recOf [200, 15, 160, 1, 136]) =
      some { seq := 200, luminance := 4000, window := true, heater := false, sensor := false } ∧
    statusFrameOf (recOf [63, 3, 232, 0, 214]) =
      some { addr := 15, level := 1000, lamp := false, supply := false, closed := false } ∧
    statusFrameOf (recOf [63, 3, 233, 0, 213]) = none ∧
    statusFrameOf (recOf [64, 3, 232, 0, 213]) = none ∧
    ((after (.powerOn) { demo with image := some demo.active }).lampLine 0).tx.map
      Transaction.frame = some (levelFrame 0 1000) := by decide

/-- P0's line with a transaction of no channel that carries the farewell of a channel at address 7, for
which the channel waits while another farewell of it is outstanding. -/
def farewell (c : Fin 32) (replaced : Bool) (s : State) : State :=
  let kept (a : Fin 16) (r : Bool) : Departed :=
    { channel := c, addr := a, misses := 0, status := none, replaced := r, later := false }
  (s.setChannel c { s.channel c with farewell := some (0, 7) }).setLine 0
    { s.lampLine 0 with
      departed := [kept 3 true, kept 7 replaced]
      tx := some { level := some 0, addr := 7, channel := none, departing := some c,
                   frame := levelFrame 7 0, phase := .window 5 false } }

/-- The demo with its channel 0 off its line. -/
def offLine : State :=
  demo.setLine 0 { demo.lampLine 0 with stations := wr (demo.lampLine 0).stations 0 none }

/-- The STATUS frame of address 7. -/
def status7 : Burst := wire (recOf [55, 0, 0, 0, 201])

theorem meets_farewells :
    demo.assignment 9 = none ∧ (demo.channel 9).farewell = none ∧
    ((farewell 9 false demo).channel 9).farewell = some (0, 7) ∧
    (∀ r : Bool, ((((farewell 9 r demo).lampLine 0).departed.filter fun d =>
      d.addr == 7 && d.channel == 9).getLast?.map Departed.replaced) = some r) ∧
    (demo.set 0).find 0 0 = some circuit0 ∧
    ((farewell 0 true offLine).channel 0).level = some 1000 ∧
    5 ≤ ({ farewell 9 false demo with now := 5 } : State).now ∧
    ((status7.frame true).bind statusFrameOf).map StatusFrame.addr = some 7 := by decide
/-- A farewell being sent at address 7, and a newer one of the channel there that waits. -/
def farewellAgain : State :=
  let s := farewell 9 false demo
  s.setLine 0 ((s.lampLine 0).leave 7 9 false)

theorem test_farewell_entered_while_one_is_sent :
    ((farewellAgain.lampLine 0).departed.map Departed.later) = [false, false, true] ∧
    ((after (.statusReply 0 status7) farewellAgain).channel 9).farewell = some (0, 7) ∧
    ((after (.statusReply 0 status7) farewellAgain).lampLine 0).departed.map
      (fun d => (d.addr, d.later)) = [(3, false), (7, false)] := by decide
theorem test_farewell_unassigns_and_takes_up :
    (after (.statusReply 0 status7)
      (farewell 9 false (demo.setChannel 9
        { hand := none, level := some 5, target := none, farewell := none }))).channel 9 =
      Channel.unassigned ∧
    ((after (.replyWindowExpiry 0) { farewell 0 true offLine with now := 5 }).lampLine 0).carries 0 0 =
      true := by decide
/-- A farewell that the channel does not wait for, of a portal that it has left before it joined again. -/
theorem test_farewell_of_a_channel_that_has_joined_again :
    ((after (.replyWindowExpiry 0)
      { (farewell 0 false demo).setChannel 0 (demo.channel 0) with now := 5 }).channel 0).level =
      (demo.channel 0).level := by decide
theorem meets_loss_of_a_switched_channel :
    ((windowed none 1 1 2 (zoned .steady 650 true true false demo)).zone 0 0).map Zone.confirmed =
      some true ∧ circuit1.cfg.switched = true ∧ circuit1.cfg.zone = some 0 ∧
    ((after (.replyWindowExpiry 0) { windowed none 1 1 2 (zoned .steady 650 true true false demo) with
      now := 5 }).zone 0 0).map Zone.degraded = some true := by decide
theorem meets_line_condition :
    ((windowed none 1 1 3 (windowed none 0 0 3 demo)).lampLine 0).allLost = true ∧
    ((windowed none 0 0 2 demo).lampLine 0).allLost = false ∧
    (demo.lampLine 1).allLost = false ∧ (demo.lampLine 0).down = false := by decide

/-! ### Single commands -/

theorem test_power_on_is_the_reset_state :
    ((after .powerOn State.reset).queue .A = State.reset.queue .A) ∧
    ((after .powerOn State.reset).port .L = State.reset.port .L) ∧
    ((after .resetLine State.reset).resetCause = .resetLine) := by decide
theorem test_preamble : ((after (.frameBegin .A) demo).port .A).out = recOf [0, 0, 0, 0] := by decide
theorem test_bad_command : ((after (.badCommand .A 20) (inFrame .A demo)).port .A).code = .badCommand := by
  decide
theorem test_nop_outcome_in_the_next_preamble :
    ((after (.frameBegin .A) (after (.frameEnd .A .boundary)
      (after (.nop .A) (inFrame .A demo)))).port .A).out = recOf [1, 1, 0, 0] := by decide
theorem test_read_of_the_event_queue_pops :
    ((after (.readRecord .A .delivery) (after (.readRecord .A .start)
      (after (.read .A (hdr 15 128 1)) (inFrame .A State.reset)))).queue .A).records.length = 1 := by
  decide
theorem test_event_record_bytes :
    ((after (.readRecord .A .start) (after (.read .A (hdr 15 128 1)) (inFrame .A State.reset))).port
      .A).out = recOf [0, 0, 0, 0, 0, 0, 0, 0, 255, 0, 0, 0, 0, 0, 0, 0, 0, 0, 0, 0] := by decide
theorem test_write_of_a_stage_count :
    (((after (.write .A (hdr 17 0 1) (recOf [12, 0])) (inFrame .A (holding .A false demo))).edit
      0).shadow.map fun x => x.set.stageCount) = some 12 := by decide
theorem test_push_of_a_cap_lowers_the_stage :
    ((after (.pushClaim .A (hdr 1 0 1) (recOf [2, 0, 0, 0, 0, 0, 0, 0])) (inFrame .A demo)).arbiter
      0).effective = 0 := by decide
theorem test_withdraw_restores_the_stage :
    ((after (.withdraw .A (hdr 0 0 1) (recOf [0, 2]))
      (inFrame .A (resolve 0 (claiming [claimOf 2 .cap 0] demo)))).arbiter 0).effective = 2 := by decide
theorem test_withdraw_any_denied :
    ((after (.withdrawAny .B (hdr 0 0 1) []) (inFrame .B demo)).port .B).code = .seatDenied := by decide
theorem test_take_channel :
    ((after (.takeChannel .A (hdr 0 0 1) (recOf [0, 0, 0, 0])) (inFrame .A demo)).channel 0).hand =
      some { seat := .A, level := 1000 } := by decide
theorem test_set_channel_raises_to_min :
    ((after (.setChannel .A (hdr 0 0 1) (recOf [0, 0, 0, 5])) (inFrame .A (handed 0 .A demo))).channel
      0).level = some 100 := by decide
theorem test_release_channel :
    ((after (.releaseChannel .A (hdr 0 0 1) (recOf [0, 0, 0, 0])) (inFrame .A (handed 0 .A demo))).channel
      0).hand = none := by decide
theorem test_trip_and_reset :
    ((after (.trip .A (hdr 1 0 1) (recOf [7, 0])) (inFrame .A demo)).port .A).value = 1 ∧
    ((after (.tripReset .B (hdr 1 0 1) (recOf [2, 0])) (inFrame .B ordered)).tripped 0) = false := by
  decide
theorem test_grants :
    ((after (.takeGrant .A (hdr 3 0 0)) (inFrame .A demo)).port .A).value = 3 ∧
    ((after (.seizeGrant .L (hdr 1 0 0)) (inFrame .L (holding .A false demo))).edit 0).holder =
      some .L ∧
    ((after (.releaseGrant .A (hdr 1 0 0)) (inFrame .A (holding .A false demo))).edit 0).shadow =
      none := by decide
theorem test_commit_adopts_at_once :
    ((after (.commit .A (hdr 1 0 0)) (inFrame .A (holding .A false demo))).port .A).value = 1 := by decide
theorem test_discard :
    ((after (.discard .A (hdr 1 0 0)) (inFrame .A (waitingSet (holding .A true demo)))).edit
      0).pendingSet = none := by decide
theorem test_adoption : ((after (.adoption 0) (waitingSet demo)).edit 0).pendingSet = none := by decide
theorem test_store :
    (after (.store .A) (inFrame .A (holding .A false demo))).storing.map StoreWrite.latest =
      some 2000 := by decide
theorem test_set_seat :
    ((after (.setSeat .A (hdr 0 0 1) (recOf [0, 0, 255, 255])) (inFrame .A demo)).port .A).deadline =
      none := by decide
theorem test_restart : ((after (.restart .L) (inFrame .L ordered)).tripped 0) = true := by decide
theorem test_silence_is_told_in_order :
    (let s := { handed 0 .A (holding .A false (claiming [claimOf 5 .floor 2, claimOf 6 .cap 2] demo)) with
        now := 10000 }
     (((after (.seatSilent .A) s).queue .A).records.drop 1).map EventRecord.event =
      [.claimRemoved 0 5 .floor true, .claimRemoved 0 6 .cap true, .handReleased 0 0 .silence,
       .grantLost 0 true] ∧
     (((after (.seatSilent .A) s).queue .B).records.drop 1).map EventRecord.event =
      [.seatSilent .A]) := by decide
theorem test_header_fields :
    (hdr 0xB2 0x8B 7).cls = 18 ∧ (hdr 0xB2 0x8B 7).owner = 5 ∧ (hdr 0xB2 0x8B 7).index = 11 ∧
    (hdr 0xB2 0x8B 7).stepping = some .hold ∧ (hdr 0xB2 0x8B 7).records = 7 ∧
    (hdr 0xFA 0 0).portals = [1, 3] ∧ maskOf [1, 3] = 10 ∧
    ResultCode.notTripped.code = 18 := by decide
theorem test_silence :
    ((after (.seatSilent .A) { handed 0 .A demo with now := 10000 }).channel 0).hand = none := by decide
theorem test_third_reading_is_valid :
    ((after (.readingFrame 0 (wire frame9))
      (metered .starting [reading 1 900, reading 2 1100] demo)).meter 0).estimate = some 1000 := by decide
theorem test_stale : ((after (.staleDeadline 0) (metered .valid [] demo)).meter 0).state = .stale := by
  decide
theorem test_hold_expiry :
    ((after (.holdTimerExpiry 0) inHold).eval 0).status = .lost ∧
    ((after (.holdTimerExpiry 0) (inHold.setArbiter 0 { inHold.arbiter 0 with effective := 1 })).queue
      .B).records.map EventRecord.event =
      [.restarted .powerOn, .sourceChanged 0 .lost, .stageChanged 0 1 2 2] := by decide
theorem test_dwell_expiry : ((after (.dwellExpiry 0) (following 1 199 demo)).selector 0).automatic = 0 := by
  decide
theorem test_claim_expiry :
    ((after (.claimExpired 0 2) { claiming [claimOf 2 .cap 2] demo with now := 500 }).arbiter
      0).claims = [] := by decide
/-- R75: the removal of the topmost INJECT claim makes the older one topmost. -/
theorem test_expired_injection_hands_the_older_one_on :
    let t := after (.claimExpired 0 3) injecting
    (t.eval 0).status = .injected ∧ (t.eval 0).luminance = 900 ∧
    ((t.queue .A).records.map EventRecord.event)[1]? = some (.claimExpired 0 3 .inject) := by decide
theorem test_ramp :
    ((after .rampInterval
      (demo.setChannel 0 { demo.channel 0 with level := some 0, target := some 1000 })).channel 0).level =
      some 100 := by decide
/-- R90, R101: a landing completes the zone's ramp, and the new level is the line's oldest entry. -/
theorem test_ramp_landing :
    let t := after .rampInterval (ramping .boostOffPrep 985 990)
    (t.zone 0 0).map Zone.state = some .overlapOff ∧
    ((t.lampLine 0).tx.map fun x => (x.addr, x.level)) = some (0, some 990) := by decide
theorem test_overlap_on_expiry :
    ((after (.overlapOnExpiry 0 0) (zoned .overlapOn 650 true true false demo)).zone 0 0).map Zone.state =
      some .boostOffPrep := by decide
theorem test_overlap_off_expiry :
    ((after (.overlapOffExpiry 0 0) (zoned .overlapOff 350 true true false demo)).channel 1).level =
      some 0 := by decide
theorem test_confirm_timeout :
    ((after (.confirmTimeout 0 0) (zoned .boostOnWait 650 true false false demo)).zone 0 0).map
      Zone.degraded = some true := by decide
theorem test_fire :
    ((after (.fireInputChange 0 true) demo).tripUnit 0).debounce = some 200 ∧
    ((after (.debounceExpiry 0) { after (.fireInputChange 0 true) demo with now := 200 }).tripped 0) =
      true := by decide
theorem test_frame_sent :
    (((after (.frameSent 0) (beginTransactions demo)).lampLine 0).tx.map Transaction.phase) =
      some (.window 10 false) := by decide
theorem test_reply_closes_the_overlap :
    ((after (.statusReply 0 (wire status1)) (windowed none 1 1 0
      (zoned .boostOnWait 650 true false false demo))).zone 0 0).map Zone.state = some .overlapOn := by
  decide
theorem test_third_miss_loses_the_channel :
    (rd ((after (.replyWindowExpiry 0) { windowed none 0 0 2 demo with now := 5 }).lampLine
      0).stations 0).map Station.misses = some 3 := by decide
theorem test_store_write_end :
    (after (.storeWriteEnd true)
      { demo with
        image := none
        storing := some { seat := .A, time := 0, snapshot := demo.active, latest := 2000,
                          silenced := false } }).image = some demo.active := by decide

end Sys2Proof.Tests
end

section
namespace Sys2Proof.Machine

/-! ### Circuits by their slots -/

@[simp] theorem rd_replicate {α : Type} {n : Nat} (x : α) (i : Fin n) :
    rd (Vector.replicate n x) i = x := by
  simp [rd]

theorem mem_allAddrs (a : Fin 16) : a ∈ allAddrs := by
  revert a
  decide

theorem mem_allPortals (p : Fin 4) : p ∈ allPortals := by
  revert p
  decide

theorem mem_allZones (z : Fin 5) : z ∈ allZones := by
  revert z
  decide

/-- A circuit of a set is a record in the slot of its address. -/
theorem mem_circuits {x : PortalSet} {p : Fin 4} {k : Circuit} :
    k ∈ x.circuits p ↔ k.portal = p ∧ rd x.slots k.addr = some k.cfg := by
  rw [PortalSet.circuits, List.mem_filterMap]
  constructor
  · rintro ⟨a, -, ha⟩
    obtain ⟨r, hr, rfl⟩ := Option.map_eq_some_iff.mp ha
    exact ⟨rfl, hr⟩
  · rintro ⟨rfl, hr⟩
    exact ⟨k.addr, mem_allAddrs _, by rw [PortalSet.circuit, hr]; rfl⟩

/-- A circuit is named by its portal and its address. -/
theorem circuit_eq_of_addr {x : PortalSet} {p : Fin 4} {k j : Circuit} (hk : k ∈ x.circuits p)
    (hj : j ∈ x.circuits p) (h : j.addr = k.addr) : j = k := by
  obtain ⟨hkp, hk⟩ := mem_circuits.mp hk
  obtain ⟨hjp, hj⟩ := mem_circuits.mp hj
  rw [h, hk] at hj
  obtain ⟨_, _, _⟩ := j
  obtain ⟨_, _, _⟩ := k
  simp_all

end Sys2Proof.Machine
end

section
namespace Sys2Proof.Machine

/-! ### The overlay stands with the sources (O54) -/

/-- The clauses of `TripsWf` at one portal. -/
def TripsWfAt (s : State) (p : Fin 4) : Prop :=
  (s.baseOf p = .unconfigured ↔ (s.record p).enabled = false) ∧
    (s.tripUnit p).sources = s.sourcesOf p ∧
    (s.tripUnit p).overlay = ((s.tripUnit p).sources != TripSet.empty)

/-- Well-formed trips, but for sources of portal `p` that wait to be recomputed. -/
def TripsDue (p : Fin 4) (s : State) : Prop :=
  (∀ q, q ≠ p → TripsWfAt s q) ∧
    (s.baseOf p = .unconfigured ↔ (s.record p).enabled = false) ∧
    (s.tripUnit p).overlay = ((s.tripUnit p).sources != TripSet.empty)

theorem TripsWf.due {s : State} (h : TripsWf s) (p : Fin 4) : TripsDue p s :=
  ⟨fun q _ => h q, (h p).1, (h p).2.2⟩

/-- What the trips of a portal depend on: Trip Units, active sets, and which portals are UNCONFIGURED. -/
theorem tripsWfAt_congr {s t : State} {q : Fin 4}
    (hb : t.baseOf q = .unconfigured ↔ s.baseOf q = .unconfigured) (ha : t.set q = s.set q)
    (ht : t.tripUnit q = s.tripUnit q) : TripsWfAt s q → TripsWfAt t q := by
  have hbase : (t.baseOf q != .unconfigured) = (s.baseOf q != .unconfigured) := by
    rw [bne, bne, Bool.eq_iff_iff]
    simpa using not_congr hb
  have hrec : t.record q = s.record q := congrArg PortalSet.record ha
  have hsrc : t.sourcesOf q = s.sourcesOf q := by
    rw [State.sourcesOf, State.linePresent, ht, hrec, hbase]
    rfl
  unfold TripsWfAt
  rw [hsrc, hb, ht, hrec]
  exact id

theorem tripsDue_congr {s t : State} {p : Fin 4}
    (hb : ∀ q, t.baseOf q = .unconfigured ↔ s.baseOf q = .unconfigured) (ha : t.active = s.active)
    (ho : ∀ q, q ≠ p → t.tripUnit q = s.tripUnit q)
    (hs : (t.tripUnit p).sources = (s.tripUnit p).sources)
    (hv : (t.tripUnit p).overlay = (s.tripUnit p).overlay) : TripsDue p s → TripsDue p t := by
  rintro ⟨hq, he, hp⟩
  refine ⟨fun q hne => tripsWfAt_congr (hb q) (by rw [State.set, ha]) (ho q hne) (hq q hne), ?_, ?_⟩
  · rw [hb, State.record, ha]
    exact he
  · rw [hs, hv]
    exact hp

/-- A write to the Trip Unit whose sources are due leaves the others alone. -/
theorem tripsDue_setTrip {s : State} {p : Fin 4} {x : TripUnit}
    (hs : x.sources = (s.tripUnit p).sources) (hv : x.overlay = (s.tripUnit p).overlay)
    (h : TripsDue p s) : TripsDue p (s.setTrip p x) :=
  tripsDue_congr (s := s) (fun _ => Iff.rfl) rfl (fun q hne => by simp [State.tripUnit, hne.symm])
    (by simp [State.tripUnit, hs]) (by simp [State.tripUnit, hv]) h

/-- The recomputation touches no set and no base state. -/
theorem recompute_sets (p : Fin 4) (s : State) :
    ((recompute p s).active, (recompute p s).base) = (s.active, s.base) :=
  recompute_keeps (tripsFrame p (s.active, s.base) (fun s => (s.active, s.base))
    (fun _ _ _ _ => rfl) (fun _ _ _ => rfl) (fun _ _ _ => rfl) (fun _ _ _ => rfl)
    (fun _ _ _ => rfl)) s rfl

/-- The recomputation gives the sources that were due (R110). -/
theorem recompute_wf {p : Fin 4} {s : State} (h : TripsDue p s) : TripsWf (recompute p s) := by
  obtain ⟨hq, he, hp⟩ := h
  have ht := recompute_trips p s hp
  obtain ⟨ha, hb⟩ := Prod.mk.inj (recompute_sets p s)
  intro q
  by_cases hqp : q = p
  · subst hqp
    have hu : (recompute q s).tripUnit q = (s.tripUnit q).recomputed (s.sourcesOf q) s.tenths := by
      rw [State.tripUnit, ht, rd_wr_self]
    have hsrc : (recompute q s).sourcesOf q = s.sourcesOf q := by
      simp only [State.sourcesOf, State.linePresent, hu, State.record, State.baseOf, ha, hb,
        TripUnit.recomputed]
    refine ⟨by rw [State.baseOf, State.record, ha, hb]; exact he, ?_, ?_⟩
    · rw [hu, hsrc, TripUnit.recomputed]
    · rw [hu, TripUnit.recomputed]
  · refine tripsWfAt_congr (by rw [State.baseOf, hb]) (by rw [State.set, ha]) ?_ (hq q hqp)
    rw [State.tripUnit, ht, rd_wr_of_ne _ _ (Ne.symm hqp)]

/-- A base state that goes from STARTING to RUNNING changes nothing for the trips. -/
theorem setBase_running {s : State} {p : Fin 4} (h : s.baseOf p = .starting) (q : Fin 4) :
    (s.setBase p .running).baseOf q = .unconfigured ↔ s.baseOf q = .unconfigured := by
  by_cases hqp : p = q
  · subst hqp
    rw [h]
    simp [State.baseOf]
  · simp [State.baseOf, hqp]

/-- A write of meters, evaluators, stages, claims, zones, channels or lines is none to the trips. -/
theorem tripsWf_congr {s t : State}
    (hb : ∀ q, t.baseOf q = .unconfigured ↔ s.baseOf q = .unconfigured) (ha : t.active = s.active)
    (ht : t.trips = s.trips) (h : TripsWf s) : TripsWf t := fun q =>
  tripsWfAt_congr (hb q) (by rw [State.set, ha]) (by rw [State.tripUnit, ht]) (h q)

/-- Zones, channels and levels that enter are none to the trips. -/
theorem TripsWf.light (p : Fin 4) : KeptByLight p (atPortal p) TripsWf where
  place := fun _ hk => hk
  scope := fun _ _ _ hk => circuit_portal hk
  zone := fun _ _ _ hs => hs
  channel := fun _ _ _ _ hs => hs
  enter := fun _ _ _ _ hs => hs

theorem TripsWf.source (p : Fin 4) : KeptBySource p (atPortal p) TripsWf where
  toKeptByLight := TripsWf.light p
  post := fun _ _ _ _ hs => hs
  selector := fun _ _ hs => hs
  arbiter := fun _ _ _ hs => hs
  eval := fun _ _ hs => hs
  base := fun _ hb hs => tripsWf_congr (setBase_running hb) rfl rfl hs

theorem acceptPush_tripsWf (seat : Seat) (h : Header) (q : ClaimRequest) (s : State) (hs : TripsWf s) :
    TripsWf (acceptPush seat h q s) := by
  have accepted (value : Nat) (c l d : Bool) (u : State) (hu : TripsWf u) :
      TripsWf (accept seat value c l d u) := hu
  have copied (number : Nat) (p : Fin 4) (u : State) (hu : TripsWf u) :
      TripsWf (pushCopy q seat number p u) := by
    have set (l : List Claim) : TripsWf (setClaims p l u) := hu
    exact claimsChanged_keeps (TripsWf.source p) _ _ (set _)
  unfold acceptPush
  dsimp only
  exact accepted _ _ _ _ _ (forEach_keeps (fun p _ u hu => copied _ p u hu) _ hs)

/-- A portal is UNCONFIGURED after a reset exactly while its record is not enabled (R4). -/
theorem baseAfter_unconfigured (x : PortalSet) :
    x.baseAfter = .unconfigured ↔ x.record.enabled = false := by
  unfold PortalSet.baseAfter
  cases x.record.enabled <;> simp

/-- No trip source stands after power-on (R124). -/
theorem powerUp_tripsWf (cause : ResetCause) (s : State) : TripsWf (powerUp cause s) := by
  have loaded : ∀ u : State, (∀ q, u.baseOf q = (u.set q).baseAfter) →
      (∀ q, ∃ b, u.tripUnit q = (u.set q).tripAfter b) → TripsWf u := by
    intro u hb ht q
    obtain ⟨b, ht⟩ := ht q
    refine ⟨by rw [hb]; exact baseAfter_unconfigured _, ?_, ?_⟩
    · simp [State.sourcesOf, State.linePresent, ht, PortalSet.tripAfter, TripUnit.reset]
    · rw [ht]
      rfl
  have posted (u : State) (hu : TripsWf u) (b : Bool) :
      TripsWf (if b then postAll .storeInvalid u else u) := by
    cases b <;> exact hu
  exact posted _ (loaded _ (fun q => by simp [State.baseOf, resetCommon])
    fun q => ⟨_, by simp [State.tripUnit, resetCommon]; rfl⟩) _

/-- A RESTART keeps the latches, the sources and the overlay (R125). -/
theorem restartPart_tripsWf (s : State) (hs : TripsWf s) : TripsWf (restartPart s) := by
  unfold restartPart
  dsimp only
  refine forEach_keeps (fun p _ u hu => restartPortal_keeps (TripsWf.light p) u hu) _ ?_
  intro q
  obtain ⟨hb, hsrc, ho⟩ := hs q
  refine ⟨by simpa [State.baseOf, resetCommon] using baseAfter_unconfigured _, ?_, ?_⟩
  · have hbne : ((s.set q).baseAfter != .unconfigured) = (s.baseOf q != .unconfigured) := by
      rw [Bool.eq_iff_iff, bne_iff_ne, bne_iff_ne, Ne, baseAfter_unconfigured, Ne, hb]
    simpa [State.sourcesOf, State.linePresent, TripUnit.keep, resetCommon, State.tripUnit,
      State.baseOf, hbne] using hsrc
  · simpa [TripUnit.keep, State.tripUnit] using ho

/-- The single writes keep the trips well-formed: none of them is to a Trip Unit or to an active set. -/
theorem TripsWf.writes : KeptByWrites TripsWf where
  post := fun _ _ _ _ hs => hs
  port := fun _ _ _ hs => hs
  mask := fun _ _ _ hs => hs
  pop := fun _ _ hs => hs
  meter := fun _ _ _ _ hs => hs
  eval := fun _ _ _ hs => hs
  base := fun _ _ hb hs => tripsWf_congr (setBase_running hb) rfl rfl hs
  selector := fun _ _ _ hs => hs
  arbiter := fun _ _ _ _ hs => hs
  remove := fun _ _ _ hs => hs
  push := fun seat h q s _ hs => acceptPush_tripsWf seat h q s hs
  zone := fun _ _ _ _ hs => hs
  channel := fun _ _ _ hs => hs
  tx := fun _ _ _ hs => hs
  departed := fun _ _ _ hs => hs
  station := fun _ _ _ _ _ hs => hs
  enter := fun _ _ _ _ _ hs => hs
  begin := fun _ _ hs => hs
  grant := fun _ _ _ hs => hs
  ungrant := fun _ _ hs => hs
  shadow := fun _ _ _ _ _ hs => hs
  pending := fun seat p s hs => by
    unfold makePending
    dsimp only
    split <;> exact hs
  discard := fun _ _ hs => hs
  store := fun _ _ _ hs => hs
  free := fun _ _ hs => hs
  clock := fun _ _ _ hs => hs
  powerUp := fun cause s _ => powerUp_tripsWf cause s
  restart := restartPart_tripsWf

/-- A change of the fire input changes no latch (R112). -/
theorem tripsWf_change {s : State} {p : Fin 4} {level : Bool} {now : Nat} (hs : TripsWf s) :
    TripsWf (s.setTrip p ((s.tripUnit p).change level now)) := by
  intro q
  by_cases hqp : p = q
  · subst hqp
    simpa [State.sourcesOf, State.linePresent, TripUnit.change, State.tripUnit, State.baseOf,
      State.record] using hs p
  · exact tripsWfAt_congr (s := s) Iff.rfl rfl (by simp [State.tripUnit, hqp]) (hs q)

/-- What an adoption writes before the Trip Unit acts leaves the sources of its portal due. -/
theorem TripsDue.adoption (p : Fin 4) : KeptByAdoption p (atPortal p) (TripsDue p) where
  place := fun _ hk => hk
  scope := fun _ _ _ hk => circuit_portal hk
  zone := fun _ _ _ hs => hs
  channel := fun _ _ _ _ hs => hs
  enter := fun _ _ _ _ hs => hs
  post := fun _ _ _ _ hs => hs
  selector := fun _ _ hs => hs
  arbiter := fun _ _ _ hs => hs
  eval := fun _ _ hs => hs
  base := fun _ hb hs => tripsDue_congr (setBase_running hb) rfl (fun _ _ => rfl) rfl rfl hs
  meter := fun _ _ _ _ hs => hs
  freezes := fun _ hs => hs
  test := fun s hs => by
    unfold testLineOnly
    dsimp only
    split
    · exact hs
    · exact tripsDue_setTrip rfl rfl hs
  leave := fun _ _ _ _ hs => hs
  join := fun _ _ _ _ hs => hs

theorem latchFire_tripsDue {p : Fin 4} {s : State} (hs : TripsDue p s) :
    TripsDue p (latchFire p s) := by
  unfold latchFire
  split
  · exact tripsDue_setTrip rfl rfl hs
  · exact hs

/-- The Trip Unit's own cases at an adoption change latches and the fire input, and no source (R118). -/
theorem adoptTrip_tripsDue {p : Fin 4} (old : PortalRecord) {s : State} (hs : TripsDue p s) :
    TripsDue p (adoptTrip p old s) := by
  have reread (c : Prop) [Decidable c] (level : Bool) (now : Nat) :
      TripsDue p (if c then s.setTrip p ((s.tripUnit p).change level now) else s) := by
    split
    · exact tripsDue_setTrip rfl rfl hs
    · exact hs
  unfold adoptTrip
  dsimp only
  split
  · exact tripsDue_setTrip rfl rfl (reread _ _ _)
  · exact latchFire_tripsDue (reread _ _ _)

/-- The adopted base state follows the record (R2), so the sources of the portal alone are due. -/
theorem activate_tripsDue {p : Fin 4} (new : PortalSet) {s : State} (hs : TripsDue p s) :
    TripsDue p (activate p new s) := by
  obtain ⟨hq, -, hp⟩ := hs
  refine ⟨fun q hne => ?_, ?_, hp⟩
  · exact tripsWfAt_congr (s := s) (by simp [State.baseOf, activate, hne.symm])
      (by simp [State.set, activate, hne.symm]) rfl (hq q hne)
  · simp only [activate, State.baseOf, State.record, State.setBase_base, State.setBase_active,
      State.setEdit_active, State.setActive_active, rd_wr_self, BaseState.adopt]
    cases new.record.enabled
    · simp
    · simp only [Bool.not_true, Bool.false_eq_true, if_false]
      split <;> simp_all

theorem adopt_tripsWf (p : Fin 4) (x : PendingSet) (s : State) (hs : TripsWf s) :
    TripsWf (adopt p x s) := by
  have posted (u : State) (hu : TripsWf u) : TripsWf (postAll (.adopted p x.seat) u) := hu
  have refreshed (u : State) (hu : TripsWf u) : TripsWf (refreshShadow p u) := by
    unfold refreshShadow
    dsimp only
    split <;> exact hu
  have lit := adoptLit_keeps (TripsDue.adoption p) x.set s (fun _ hk => circuit_portal hk)
    (activate_tripsDue x.set (hs.due p))
  unfold adopt
  dsimp only
  exact refreshed _ (posted _ (recompute_wf (adoptTrip_tripsDue _ lit)))

/-- Where a Trip Unit or an active set is written, the recomputation follows. -/
theorem TripsWf.parts : KeptByParts TripsWf where
  toKeptByWrites := TripsWf.writes
  test := fun n s hs => by
    unfold testLine
    split
    · exact hs
    · exact recompute_wf ((TripsDue.adoption n).test s (hs.due n))
  fire := fun _ v _ s hs => tripsWf_change (s := { s with firePins := v }) hs
  settle := fun p s hs => by
    refine recompute_wf ?_
    have settled := postAll_keeps (P := TripsDue p) (fun _ _ _ _ h => h)
      (.fireInput p (s.tripUnit p).fireLevel) (by simp [Event.kind]) _
      (tripsDue_setTrip (x := { s.tripUnit p with
        debounced := (s.tripUnit p).fireLevel, debounce := none }) rfl rfl (hs.due p))
    exact latchFire_tripsDue settled
  order := fun seat reason p s hs => by
    unfold orderTrip
    dsimp only
    split
    · exact hs
    · exact recompute_wf (tripsDue_setTrip rfl rfl (hs.due p))
  reset := fun _ _ p _ hs => recompute_wf (tripsDue_setTrip rfl rfl (hs.due p))
  adopt := fun p x s _ hs => adopt_tripsWf p x s hs

/-- Settles O54: the recomputation closes every write that the sources depend on. -/
theorem everyStepKeepsTheOverlayWithTheSources : Obligations.EveryStepKeepsTheOverlayWithTheSources :=
  fun s t hs ht => step_keeps TripsWf.parts (fun _ _ h => h) s hs t ht

end Sys2Proof.Machine
end

section
namespace Sys2Proof.Machine

/-! ### Power-on and the RESET line (O3) -/

/-- The active sets that power-on loads (R14, R168). -/
def State.loadedSets (s : State) : Vector PortalSet 4 :=
  s.imageAfter.getD (Vector.replicate 4 PortalSet.default)

/-- An event queue after power-on (R168, R175). -/
def queueAfter (cause : ResetCause) (valid : Bool) : EventQueue :=
  { records :=
      { event := .restarted cause, seq := 0, time := 0 } ::
        (if valid then [] else [{ event := .storeInvalid, seq := 1, time := 0 }]),
    seq := if valid then 1 else 2, overflowed := false, mask := 0x3FFF#16, attention := true }

/-- The part after power-on or the RESET line, in closed form. -/
def poweredUp (cause : ResetCause) (s : State) : State :=
  { now := 0, nextRamp := 100, resetCause := cause, freeIndex := s.freeIndex, firePins := s.firePins,
    meters := tab (meterAfter s.loadedSets), active := s.loadedSets,
    edits := Vector.replicate 4 Edit.none, base := tab fun p => (rd s.loadedSets p).baseAfter,
    evals := Vector.replicate 4 Evaluator.reset,
    selectors := tab fun p => (rd s.loadedSets p).selectorAfter,
    arbiters := tab fun p => (rd s.loadedSets p).arbiterAfter, claimCounter := 1,
    zones := tab fun p => tab (rd s.loadedSets p).zoneAfter,
    channels := tab (channelAfter s.loadedSets),
    lines := tab fun n => (lineAfter s.loadedSets n).begin 0,
    trips := tab fun p => (rd s.loadedSets p).tripAfter (rd s.firePins p),
    image := s.imageAfter, storing := none, ports := Vector.replicate 3 SeatPort.reset,
    queues := Vector.replicate 3 (queueAfter cause s.imageAfter.isSome), pending := s.pending }

/-- STORE_INVALID joins each queue behind RESTARTED. -/
theorem postAll_storeInvalid (cause : ResetCause) (s : State) (hn : s.now = 0)
    (hq : s.queues = Vector.replicate 3 (EventQueue.reset cause)) :
    postAll .storeInvalid s = { s with queues := Vector.replicate 3 (queueAfter cause false) } := by
  have hseat (q : Vector EventQueue 3) (h : ∀ seat, rd q (seatIx seat) = queueAfter cause false) :
      q = Vector.replicate 3 (queueAfter cause false) := by
    apply bank_ext
    intro i
    rw [rd_replicate]
    fin_cases i
    · exact h .A
    · exact h .B
    · exact h .L
  have hqs : (postAll .storeInvalid s).queues = Vector.replicate 3 (queueAfter cause false) := by
    apply hseat
    intro seat
    cases seat <;>
      simp [postAll, postTo, seatIx, State.queue, hq, State.uptime, State.tenths, hn,
        EventQueue.place, EventQueue.reset, EventQueue.append, EventQueue.nextSeq, queueAfter,
        Event.keptOut, Event.maskable, Event.kind, EventQueue.allKinds]
  rw [← hqs]
  rfl

theorem powerUp_eq (cause : ResetCause) (s : State) :
    beginTransactions (powerUp cause s) = poweredUp cause s := by
  have hpow : powerUp cause s =
      { poweredUp cause s with lines := tab (lineAfter s.loadedSets) } := by
    cases hi : s.imageAfter with
    | none =>
      unfold powerUp
      simp only [hi, Option.isNone_none, if_true]
      rw [postAll_storeInvalid cause _ rfl rfl]
      simp only [poweredUp, State.loadedSets, hi]
      rfl
    | some sets =>
      simp only [powerUp, poweredUp, State.loadedSets, hi]
      rfl
  have hlines : (beginTransactions (powerUp cause s)).lines = (poweredUp cause s).lines := by
    apply bank_ext
    intro n
    refine (beginTransactions_lampLine _ n).trans ?_
    simp [hpow, State.lampLine, poweredUp]
  have hrest := beginTransactions_rest (powerUp cause s)
  calc beginTransactions (powerUp cause s)
      = { ({ beginTransactions (powerUp cause s) with lines := (powerUp cause s).lines } : State) with
          lines := (beginTransactions (powerUp cause s)).lines } := rfl
    _ = poweredUp cause s := by rw [hrest, hlines, hpow]

/-- A channel's target after power-on is its first level. -/
theorem topTarget_eq (x : PortalSet) (k : Circuit) : x.topTarget k = FirstLevel x k.cfg := by
  unfold PortalSet.topTarget FirstLevel
  cases k.cfg.zone with
  | none => rfl
  | some z =>
    cases hs : k.cfg.switched with
    | true => rfl
    | false =>
      simp only [ChannelRecord.raised, hs, Bool.not_false, true_and, Bool.false_eq_true, if_false]
      rfl

theorem meterPortal_isSome (s : State) (m : Fin 8) :
    (s.meterPortal m).isSome = allPortals.any fun p => (s.record p).binds m :=
  List.isSome_find? ..

theorem poweredUp_afterReset (cause : ResetCause) (s : State) : AfterReset cause (poweredUp cause s) := by
  refine ⟨rfl, rfl, rfl, rfl, ?_, ?_, ?_, ?_, ?_, ?_, ?_, ?_⟩
  · intro m
    rw [meterPortal_isSome, State.meter, poweredUp, rd_tab, meterAfter]
    split <;> simp_all [Meter.restart, Meter.unused]
  · intro p
    simp [poweredUp, State.edit, Edit.none]
  · intro p
    exact rd_tab _ p
  · intro p
    simp [poweredUp, State.eval, Evaluator.reset]
  · intro p
    simp [poweredUp, State.selector, PortalSet.selectorAfter]
  · intro p
    simp [poweredUp, State.arbiter, PortalSet.arbiterAfter]
  · intro seat
    simp [poweredUp, State.port, SeatPort.reset]
  · intro c
    simp only [poweredUp, State.channel, rd_tab, channelAfter]
    split <;> rfl

/-- An idle line begins the transaction of its oldest entry (R129). -/
theorem LampLine.begin_of_entry {l : LampLine} {e : Entry} {rest : List Entry} {now : Nat}
    (htx : l.tx = none) (h : l.updates = e :: rest) :
    l.begin now =
      { l with
        updates := rest
        tx := some { level := some e.level, addr := e.addr, channel := e.owner,
                     departing := e.departing, frame := levelFrame e.addr e.level,
                     phase := .sending (now + frameSendMs) } } := by
  simp [LampLine.begin, htx, h]

/-- A line with no entry and no channel on it stays idle. -/
theorem LampLine.begin_of_nothing {l : LampLine} {now : Nat} (htx : l.tx = none)
    (h : l.updates = []) (hp : l.nextPoll = none) : l.begin now = l := by
  simp [LampLine.begin, htx, h, hp]

/-- A lamp line after power-on, its first transaction begun (R141). -/
theorem poweredUp_lampLine (cause : ResetCause) (s : State) (n : Fin 4) :
    let t := poweredUp cause s
    let entries : List Entry := ((t.set n).circuits n).map fun k =>
      { addr := k.addr, level := FirstLevel (t.set n) k.cfg, owner := some k.cfg.channel,
        departing := none }
    (t.lampLine n).down = false ∧ (t.lampLine n).departed = [] ∧ (t.lampLine n).cursor = 15 ∧
      (∀ a, rd (t.lampLine n).stations a =
        (rd (t.set n).slots a).map fun r =>
          { channel := r.channel, misses := 0, status := none }) ∧
      (entries = [] → (t.lampLine n).updates = [] ∧ (t.lampLine n).tx = none) ∧
      (∀ e rest, entries = e :: rest → (t.lampLine n).updates = rest ∧
        (t.lampLine n).tx = some
          { level := some e.level, addr := e.addr, channel := e.owner, departing := none,
            frame := levelFrame e.addr e.level, phase := .sending 10 }) := by
  intro t entries
  have hline : t.lampLine n = (lineAfter s.loadedSets n).begin 0 := by
    simp [t, State.lampLine, poweredUp]
  have hset : t.set n = rd s.loadedSets n := rfl
  have hupd : (lineAfter s.loadedSets n).updates = entries := by
    simp only [lineAfter, topTarget_eq]
    rfl
  have hst (a : Fin 16) : rd (lineAfter s.loadedSets n).stations a =
      (rd (t.set n).slots a).map fun r => { channel := r.channel, misses := 0, status := none } := by
    rw [lineAfter, rd_tab, hset]
  -- with no entry there is no channel on the line, so the poll finds none
  have hpoll (h : entries = []) : (lineAfter s.loadedSets n).nextPoll = none := by
    rw [LampLine.nextPoll, List.find?_eq_none]
    intro a _
    rw [hst]
    cases ha : rd (t.set n).slots a with
    | none => simp
    | some r =>
      have hk : { portal := n, addr := a, cfg := r } ∈ (t.set n).circuits n :=
        mem_circuits.mpr ⟨rfl, ha⟩
      rw [List.map_eq_nil_iff.mp h] at hk
      cases hk
  have hdown : (t.lampLine n).down = false ∧ (t.lampLine n).departed = [] ∧
      ∀ a, rd (t.lampLine n).stations a = (rd (t.set n).slots a).map fun r =>
        { channel := r.channel, misses := 0, status := none } := by
    rw [hline]
    simp only [LampLine.begin_down, LampLine.begin_departed, LampLine.begin_stations]
    exact ⟨rfl, rfl, hst⟩
  cases he : entries with
  | nil =>
    rw [LampLine.begin_of_nothing rfl (hupd.trans he) (hpoll he)] at hline
    refine ⟨hdown.1, hdown.2.1, by rw [hline]; rfl, hdown.2.2, fun _ => ?_, by simp⟩
    rw [hline]
    exact ⟨hupd.trans he, rfl⟩
  | cons e rest =>
    have hdep : e.departing = none := by
      obtain ⟨k, -, hk⟩ := List.mem_map.mp (he ▸ List.mem_cons_self : e ∈ entries)
      rw [← hk]
    rw [LampLine.begin_of_entry rfl (hupd.trans he)] at hline
    refine ⟨hdown.1, hdown.2.1, by rw [hline]; rfl, hdown.2.2, by simp, ?_⟩
    rintro e' rest' h
    obtain ⟨rfl, rfl⟩ := List.cons.inj h
    rw [hline, hdep]
    exact ⟨rfl, rfl⟩

/-- Settles O3: the closed form `poweredUp`, read block by block. -/
theorem powerOnAndResetLineLoadTheImage : Obligations.PowerOnAndResetLineLoadTheImage := by
  intro s c cause hc
  refine ⟨poweredUp cause s, ?_, poweredUp_afterReset cause s, rfl, rfl, rfl, rfl, rfl, rfl, ?_, ?_, ?_,
    ?_, poweredUp_lampLine cause s, ?_⟩
  · rcases hc with ⟨rfl, rfl⟩ | ⟨rfl, rfl⟩ <;> exact congrArg Host.Outcome.next (powerUp_eq _ s)
  · intro seat
    cases hi : s.imageAfter <;> simp [poweredUp, State.queue, queueAfter, hi]
  · intro p z
    have hz : (poweredUp cause s).zone p z = (rd s.loadedSets p).zoneAfter z := by
      simp [poweredUp, State.zone]
    exact hz
  · intro ch hn
    have hch : (poweredUp cause s).channel ch = channelAfter s.loadedSets ch := by
      simp [poweredUp, State.channel]
    have : (allPortals.findSome? fun p => (rd s.loadedSets p).find p ch) = none := hn
    rw [hch, channelAfter, this]
    rfl
  · intro ch k hk
    have hch : (poweredUp cause s).channel ch = channelAfter s.loadedSets ch := by
      simp [poweredUp, State.channel]
    have : (allPortals.findSome? fun p => (rd s.loadedSets p).find p ch) = some k := hk
    rw [hch, channelAfter, this, ← topTarget_eq]
    rfl
  · intro p
    simp [poweredUp, State.tripUnit, PortalSet.tripAfter, TripUnit.reset, State.fireRead,
      State.record, debounceMs]

end Sys2Proof.Machine
end

section
namespace Sys2Proof.Machine

/-! ### The reset state (O4) -/

/-- The reset state is what power-on gives in itself: its image is invalid, and no line finds work. -/
theorem reset_eq_poweredUp : State.reset = poweredUp .powerOn State.reset := by decide

theorem reset_set (p : Fin 4) : State.reset.set p = PortalSet.default := rd_replicate _ p

theorem reset_baseOf (p : Fin 4) : State.reset.baseOf p = .unconfigured := rd_replicate _ p

theorem reset_tripUnit (p : Fin 4) : State.reset.tripUnit p = TripUnit.reset := rd_replicate _ p

theorem reset_lampLine (n : Fin 4) : State.reset.lampLine n = LampLine.empty := rd_replicate _ n

theorem reset_queue (seat : Seat) : State.reset.queue seat = queueAfter .powerOn false :=
  rd_replicate _ (seatIx seat)

theorem reset_queuesWf : QueuesWf State.reset := by
  intro seat
  rw [reset_queue]
  refine ⟨(queueAfter .powerOn false).records, none, by simp, by decide, by decide, by simp, rfl,
    by decide, rfl⟩

/-- Power-on leaves well-formed trips, so the reset state has them. -/
theorem reset_tripsWf : TripsWf State.reset := by
  rw [reset_eq_poweredUp, ← powerUp_eq]
  exact beginTransactions_keeps TripsWf.writes.begin _ (powerUp_tripsWf .powerOn State.reset)

/-- Settles O4: the reset state is the power-on state of O3, and its blocks are empty. -/
theorem resetStateHoldsTheResetValuesAndTheInvariants :
    Obligations.ResetStateHoldsTheResetValuesAndTheInvariants := by
  refine ⟨⟨?_, ?_, ?_, ?_, rfl, rfl, ?_, ?_⟩, reset_queuesWf, ?_, ?_, reset_tripsWf, ?_, ?_, ?_⟩
  · rw [reset_eq_poweredUp]
    exact poweredUp_afterReset .powerOn State.reset
  · exact fun p => ⟨reset_set p, reset_baseOf p, by rw [reset_tripUnit]; rfl⟩
  · intro n
    rw [reset_lampLine]
    exact ⟨rfl, rfl, rfl, rfl⟩
  · intro seat
    rw [reset_queue]
    exact ⟨rfl, rfl, rfl, rfl⟩
  · exact fun c => rd_replicate _ c
  · intro p z
    simp [State.zone, State.reset]
  · intro p
    simp [State.edit, State.reset, Edit.none]
  · intro p seat
    simp [State.arbiter, State.reset, Arbiter.countOf]
  · intro n
    rw [reset_lampLine]
    exact List.nodup_nil
  · intro m
    simp [State.meter, State.reset, Meter.unused]
  · intro n a
    simp [reset_lampLine, LampLine.empty]

end Sys2Proof.Machine
end

section
namespace Sys2Proof.Machine

/-! ### What Channel Output writes (section 5.6) -/

@[simp] theorem handOn_channels (k : Circuit) (level : Nat) (s : State) :
    (handOn k level s).channels = s.channels := by
  unfold handOn
  dsimp only
  split <;> rfl

/-- A command writes the commanded level of its channel. -/
theorem command_channels (k : Circuit) (level : Nat) (s : State) :
    (command k level s).channels =
      wr s.channels k.cfg.channel
        { s.channel k.cfg.channel with level := some (k.cfg.raised level) } := by
  unfold command
  dsimp only
  split
  · next h =>
    rw [← h]
    exact (wr_rd_self _ _).symm
  · simp

/-- The line of a command: a level that changes enters, if the channel is on the line at its address. -/
theorem command_lampLine (k : Circuit) (level : Nat) (s : State) (n : Fin 4) :
    (command k level s).lampLine n =
      if n = k.portal ∧ (s.channel k.cfg.channel).level ≠ some (k.cfg.raised level) ∧
          (s.lampLine k.portal).carries k.addr k.cfg.channel = true then
        (s.lampLine k.portal).enter k.addr (k.cfg.raised level) k.cfg.channel
      else s.lampLine n := by
  unfold command handOn
  dsimp only
  by_cases hl : (s.channel k.cfg.channel).level = some (k.cfg.raised level)
  · simp [hl]
  · by_cases hc : (s.lampLine k.portal).carries k.addr k.cfg.channel
    · by_cases hn : n = k.portal
      · subst hn
        simp [hl, hc, State.lampLine]
      · simp [hl, hc, hn, State.lampLine, rd_wr_of_ne _ _ (Ne.symm hn)]
    · simp [hl, hc, State.lampLine]

/-- A command writes channels and lines, and nothing else. -/
theorem command_rest (k : Circuit) (level : Nat) (s : State) :
    { command k level s with channels := s.channels, lines := s.lines } = s := by
  unfold command handOn
  dsimp only
  split
  · rfl
  · split <;> rfl

/-- A SWITCHED channel in AUTO of an untripped portal takes its target as its level (R99). -/
theorem driveSwitched_channels (k : Circuit) (s : State) :
    (driveSwitched k s).channels =
      if k.cfg.switched = true ∧ (s.channel k.cfg.channel).hand = none ∧
          s.tripped k.portal = false then
        wr s.channels k.cfg.channel { s.channel k.cfg.channel with
          level := some (k.cfg.raised ((s.channel k.cfg.channel).target.getD 0)) }
      else s.channels := by
  unfold driveSwitched
  dsimp only
  split
  · exact command_channels _ _ _
  · rfl

theorem command_channel_of_ne {k : Circuit} {c : Fin 32} (h : k.cfg.channel ≠ c) (level : Nat)
    (s : State) : (command k level s).channel c = s.channel c := by
  rw [State.channel, command_channels, rd_wr_of_ne _ _ h]

theorem driveSwitched_channel_of_ne {k : Circuit} {c : Fin 32} (h : k.cfg.channel ≠ c) (s : State) :
    (driveSwitched k s).channel c = s.channel c := by
  rw [State.channel, driveSwitched_channels]
  split
  · exact rd_wr_of_ne _ _ h
  · rfl

theorem giveTarget_channel_of_ne {k : Circuit} {c : Fin 32} (h : k.cfg.channel ≠ c) (target : Nat)
    (s : State) : (giveTarget k target s).channel c = s.channel c := rd_wr_of_ne _ _ h

/-- A repetition reaches what one of its elements brings about and the others keep. -/
theorem forEach_reaches {α : Type} {P : State → Prop} {l : List α} {f : α → State → State} {a : α}
    (ha : a ∈ l) (hset : ∀ s, P (f a s)) (hkeep : ∀ b ∈ l, ∀ s, P s → P (f b s)) (s : State) :
    P (forEach l f s) := by
  induction l generalizing s with
  | nil => cases ha
  | cons b rest ih =>
    have keeps := fun c hc => hkeep c (List.mem_cons_of_mem b hc)
    rcases List.mem_cons.mp ha with rfl | ha
    · exact forEach_keeps keeps _ (hset s)
    · exact ih ha keeps _

/-! ### Plans (R87, R88) -/

@[simp] theorem testComplete_channels (p : Fin 4) (z : Fin 5) (s : State) :
    (testComplete p z s).channels = s.channels := by
  unfold testComplete
  split
  · rfl
  · split
    · split <;> rfl
    · rfl

theorem switchedOf_spec {x : PortalSet} {p : Fin 4} {z : Fin 5} {k : Circuit}
    (h : x.switchedOf p z = some k) :
    k ∈ x.circuits p ∧ k.cfg.zone = some z ∧ k.cfg.switched = true := by
  refine ⟨List.mem_of_find?_eq_some h, ?_⟩
  simpa using List.find?_some h

theorem mem_dimmed {s : State} {p : Fin 4} {z : Fin 5} {k : Circuit} :
    k ∈ s.dimmed p z ↔ k ∈ s.circuits p ∧ k.cfg.zone = some z ∧ k.cfg.switched = false := by
  simp [State.dimmed, List.mem_filter]

/-- A zone's switched channel alone is written when it is given its target. -/
theorem giveSwitched_channel_of_ne {p : Fin 4} {z : Fin 5} {c : Fin 32} {s : State}
    (h : ∀ j, (s.set p).switchedOf p z = some j → j.cfg.channel ≠ c) (on : Bool) :
    (giveSwitched p z on s).channel c = s.channel c := by
  unfold giveSwitched
  split
  · rfl
  · next j hj =>
    rw [driveSwitched_channel_of_ne (h j hj), giveTarget_channel_of_ne (h j hj)]

/-- Steered, a DIMMED channel that no other circuit names has the level as its target (R87). -/
theorem steer_target {p : Fin 4} {z : Fin 5} {s : State} {k : Circuit} (hk : k ∈ s.dimmed p z)
    (ho : s.only k) (level : Nat) :
    ((steer p z level s).channel k.cfg.channel).target = some (k.cfg.raised level) := by
  refine forEach_reaches (P := fun u => (u.channel k.cfg.channel).target = some (k.cfg.raised level))
    hk (fun u => by simp [giveTarget, State.channel]) (fun j hj u hu => ?_) s
  by_cases hc : j.cfg.channel = k.cfg.channel
  · obtain rfl := ho.2 p j (mem_of_dimmed hj) hc
    simp [giveTarget, State.channel]
  · rw [giveTarget_channel_of_ne hc]
    exact hu

/-- The targets that a zone's ramp gives are left by the command to its switched channel. -/
theorem enterRamping_target {p : Fin 4} {z : Fin 5} {s : State} {k : Circuit}
    (hk : k ∈ s.dimmed p z) (ho : s.only k) (zn : Zone) (level : Nat) (on : Bool) :
    ((giveSwitched p z on (enterRamping p z zn level s)).channel k.cfg.channel).target =
      some (k.cfg.raised level) := by
  obtain ⟨hkc, -, hks⟩ := mem_dimmed.mp hk
  have hset : (enterRamping p z zn level s).set p = s.set p :=
    enterRamping_keeps (P := fun u => u.set p = s.set p) (C := fun j => j.portal = p)
      { place := fun _ h => h, scope := fun _ _ _ h => circuit_portal h
        zone := fun _ _ _ h => h, channel := fun _ _ _ _ h => h, enter := fun _ _ _ _ h => h }
      z zn level s rfl
  have hne : ∀ j, ((enterRamping p z zn level s).set p).switchedOf p z = some j →
      j.cfg.channel ≠ k.cfg.channel := by
    intro j hj hc
    rw [hset] at hj
    obtain ⟨hjc, -, hjs⟩ := switchedOf_spec hj
    rw [ho.2 p j hjc hc, hks] at hjs
    cases hjs
  rw [giveSwitched_channel_of_ne hne, State.channel, enterRamping, testComplete_channels]
  exact steer_target hk ho level

end Sys2Proof.Machine
end

section
namespace Sys2Proof.Machine

/-! ### The split of a zone level (O43) -/

/-- The light of a dimmed share at its channel level, which rounds down twice: at most 1 is lost (R7). -/
theorem shareLevel_light {b d : Nat} (hb : b ≤ 500) :
    shareLevel b d * (1000 - b) / 1000 ≤ d ∧ d ≤ shareLevel b d * (1000 - b) / 1000 + 1 := by
  have hle : shareLevel b d * (1000 - b) ≤ d * 1000 := Nat.div_mul_le_self _ _
  have hlt : d * 1000 < shareLevel b d * (1000 - b) + (1000 - b) := by
    have := Nat.lt_div_mul_add (a := d * 1000) (b := 1000 - b) (by omega)
    exact this
  generalize shareLevel b d * (1000 - b) = m at hle hlt
  omega

/-- A zone whose switched target is that of the split, its boost confirmed, gives its DIMMED channels the
level of its dimmed share (R87, R88). -/
theorem plan_gives_share {p : Fin 4} {z : Fin 5} {zn : Zone} {s : State} {k : Circuit}
    (hk : k ∈ s.dimmed p z) (ho : s.only k)
    (hon : zn.switched = needsBoost (s.boostShare p z) zn.working) (hconf : zn.confirmed = true) :
    ((plan p z zn s).channel k.cfg.channel).target = some
      (k.cfg.raised (shareLevel (s.boostShare p z) (dimmedShare (s.boostShare p z) zn.working))) := by
  have ramps := enterRamping_target hk ho
  unfold plan
  dsimp only
  by_cases hb : s.boostShare p z = 0
  · have hd : dimmedShare (s.boostShare p z) zn.working = zn.working := by
      simp [dimmedShare, needsBoost, hb]
    rw [if_pos hb, ramps, hd, levelWithout]
  · rw [if_neg hb]
    by_cases hn : needsBoost (s.boostShare p z) zn.working = true
    · rw [if_pos hn, if_neg (by simp [hon, hn]), if_pos hconf, ramps, dimmedShare, if_pos hn, levelWith]
    · rw [if_neg hn, if_neg (by simpa [hon] using hn), ramps, dimmedShare, if_neg hn, levelWithout]

/-- Settles O43: the arithmetic of the split, and the plan's target for it. -/
theorem splitSharesTheLevelBetweenDimmedAndBoost :
    Obligations.SplitSharesTheLevelBetweenDimmedAndBoost := by
  refine ⟨fun r level => by simp [ChannelRecord.raised], ?_⟩
  intro b level hb hl d boost light
  have hboost : boost = true ↔ 0 < b ∧ 1000 - b < level := by simp [boost, needsBoost]
  have hsum : d + (if boost then b else 0) = level := by
    by_cases hn : boost = true
    · have : d = level - b := if_pos hn
      have := hboost.mp hn
      rw [if_pos hn]
      omega
    · have : d = level := if_neg hn
      rw [if_neg hn]
      omega
  obtain ⟨hlow, hhigh⟩ := shareLevel_light (d := d) hb
  have hlight : light = shareLevel b d * (1000 - b) / 1000 + if boost then b else 0 := rfl
  refine ⟨?_, ?_, ?_, by omega, by omega, hsum, by omega, by omega, ?_⟩
  · intro h0
    have hn : boost = false := by simp [boost, needsBoost, h0]
    exact ⟨hn, by simpa [hn] using hsum⟩
  · intro _ hle
    have hn : boost = false := by
      rw [Bool.eq_false_iff, Ne, hboost]
      omega
    exact ⟨hn, by simpa [hn] using hsum⟩
  · intro h0 hgt
    have hn : boost = true := hboost.mpr ⟨h0, hgt⟩
    rw [if_pos hn] at hsum
    exact ⟨hn, by omega, by omega, by omega, by omega⟩
  · rintro p z zn s rfl rfl k hk ho hon hconf
    exact plan_gives_share hk ho hon hconf

end Sys2Proof.Machine
end

section
namespace Sys2Proof.Machine

/-! ### SET_CHANNEL (O48) -/

theorem execSetChannel_run {seat : Seat} {h : Header} {b : List Byte} {s : State}
    (hp : (s.port seat).phase = .header) (hb : b.length = 4) :
    exec (.setChannel seat h b) s =
      done (channelCommand seat h b (setChannelCommand seat (wordAt b 2)) s) := by
  change execSetChannel seat h b s = _
  rw [execSetChannel, withRecord_run hp hb]

theorem levelOk_iff (r : ChannelRecord) (level : Nat) :
    r.levelOk level = true ↔ if r.switched then level = 0 ∨ level = 1000 else level ≤ 1000 := by
  unfold ChannelRecord.levelOk
  cases r.switched <;> simp

/-- A level asked for a channel that is in HAND for the seat (R104). -/
theorem setChannelCommand_accepted {seat : Seat} {level : Nat} {k : Circuit} {s : State} {x : Hand}
    (hx : (s.channel k.cfg.channel).hand = some x) (hs : x.seat = seat)
    (hok : k.cfg.levelOk level = true) :
    setChannelCommand seat level k s =
      accept seat ((setHandLevel k x level s).levelOf k)
        ((setHandLevel k x level s).levelOf k != s.levelOf k) (k.cfg.raised level != level) false
        (setHandLevel k x level s) := by
  simp only [setChannelCommand, inHand, hx, if_pos hs, if_pos hok]

/-- The hand level of an untripped portal's channel becomes its commanded level at once. -/
theorem setHandLevel_untripped {k : Circuit} {x : Hand} {level : Nat} {s : State}
    (ht : s.tripped k.portal = false) :
    let c := k.cfg.channel
    let u := setHandLevel k x level s
    u.channels = wr s.channels c
        { s.channel c with
          hand := some { x with level := k.cfg.raised level }, level := some (k.cfg.raised level) } ∧
      u.lampLine k.portal =
        (if (s.channel c).level ≠ some (k.cfg.raised level) ∧
            (s.lampLine k.portal).carries k.addr c then
          (s.lampLine k.portal).enter k.addr (k.cfg.raised level) c
         else s.lampLine k.portal) ∧
      (∀ n, n ≠ k.portal → u.lampLine n = s.lampLine n) ∧
      { u with channels := s.channels, lines := s.lines } = s := by
  intro c u
  have hu : u = command k level (s.setChannel c
      { s.channel c with hand := some { x with level := k.cfg.raised level } }) := by
    simp only [u, setHandLevel, ht, Bool.false_eq_true, if_false]
    rfl
  refine ⟨?_, ?_, fun n hn => ?_, ?_⟩
  · rw [hu, command_channels]
    simp [State.channel, c]
  · rw [hu, command_lampLine]
    simp [State.channel, c, State.lampLine]
  · rw [hu, command_lampLine]
    simp [hn, State.lampLine]
  · rw [hu]
    have := command_rest k level (s.setChannel c
      { s.channel c with hand := some { x with level := k.cfg.raised level } })
    exact congrArg (fun v : State => { v with channels := s.channels }) this

/-- Settles O48: the checks in their order, then the hand level in the two cases of the portal. -/
theorem setChannelCommandsTheHandLevel : Obligations.SetChannelCommandsTheHandLevel := by
  intro seat h b s hp hb run
  have hrun : run = _ := execSetChannel_run hp hb
  refine ⟨fun hr => ?_, fun hr hn => ?_, fun k hr hk => ?_⟩
  · rw [hrun, channelCommand, if_pos hr, refuse_eq_denied]
  · rw [hrun, channelCommand, if_neg (not_not.mpr hr), hn]
    rfl
  have hcmd : run = done (setChannelCommand seat (wordAt b 2) k s) := by
    rw [hrun, channelCommand, if_neg (not_not.mpr hr), hk]
  intro c ask level ok raised
  have hlevel : level = k.cfg.raised ask := by simp [level, ChannelRecord.raised]
  refine ⟨fun hx => ?_, fun x hx hne => ?_,
    fun x hx hs => ⟨fun hok => ?_, fun hok ht => ?_, fun hok ht => ?_⟩⟩
  · simp only [hcmd, setChannelCommand, inHand, c] at hx ⊢
    rw [hx]
    rfl
  · simp only [hcmd, setChannelCommand, inHand, c] at hx ⊢
    rw [hx]
    exact congrArg done (if_neg hne)
  · have hbad : ¬ k.cfg.levelOk ask = true := (levelOk_iff _ _).not.mpr hok
    simp only [hcmd, setChannelCommand, inHand, c] at hx ⊢
    rw [hx]
    simp only [if_pos hs]
    rw [if_neg hbad, refuse_eq_denied]
  · have hkept : setHandLevel k x ask s =
        s.setChannel c { s.channel c with hand := some { seat := seat, level := level } } := by
      simp only [setHandLevel, ht, if_true, ← hlevel, ← hs]
      rfl
    have hlev : (setHandLevel k x ask s).levelOf k = s.levelOf k := by
      rw [hkept]
      simp [State.levelOf, State.channel, c]
    rw [hcmd, setChannelCommand_accepted hx hs ((levelOk_iff _ _).mpr hok), hlev, hkept, ← hlevel,
      accept_eq_answer]
    simp only [bne_self_eq_false]
    rfl
  · obtain ⟨hch, hline, hlines, hrest⟩ := setHandLevel_untripped (x := x) (level := ask) ht
    have hlev : (setHandLevel k x ask s).levelOf k = level := by
      rw [State.levelOf, State.channel, hch, hlevel]
      simp
    refine ⟨setHandLevel k x ask s, ?_, ?_, ?_, hlines, hrest⟩
    · have hflag : (setHandLevel k x ask s).raisedFlag seat = s.raisedFlag seat := by
        have := congrArg (fun v : State => v.raisedFlag seat) hrest
        exact this
      rw [hcmd, setChannelCommand_accepted hx hs ((levelOk_iff _ _).mpr hok), hlev, ← hlevel,
        accept_eq_answer, hflag]
      rfl
    · rw [hch, hlevel, ← hs]
    · rw [hline, hlevel]

end Sys2Proof.Machine
end

section
namespace Sys2Proof.Machine

/-! ### Written records (O19) -/

/-- A meter binding slot's byte spells the slot (R178). -/
theorem slotOf_eq_some {n : Nat} {slot : Option (Fin 8)} :
    slotOf n = some slot ↔ n = (slot.map Fin.val).getD 255 := by
  unfold slotOf
  cases slot with
  | none =>
    simp only [Option.map_none, Option.getD_none]
    split
    · simp_all
    · split <;> simp_all
  | some m =>
    have hm := m.isLt
    simp only [Option.map_some, Option.getD_some]
    split
    · simp only [Option.some.injEq, reduceCtorEq, false_iff]
      omega
    · split
      · simp [Fin.ext_iff]
      · simp only [reduceCtorEq, false_iff]
        omega

/-- A zone's byte spells the zone (R176). -/
theorem zoneOf_eq_some {n : Nat} {zone : Option (Fin 5)} :
    zoneOf n = some zone ↔ n = (zone.map Fin.val).getD 7 := by
  unfold zoneOf
  cases zone with
  | none =>
    simp only [Option.map_none, Option.getD_none]
    split
    · simp_all
    · split <;> simp_all
  | some z =>
    have hz := z.isLt
    simp only [Option.map_some, Option.getD_some]
    split
    · simp only [Option.some.injEq, reduceCtorEq, false_iff]
      omega
    · split
      · simp [Fin.ext_iff]
      · simp only [reduceCtorEq, false_iff]
        omega

/-- A threshold's field spells the threshold (R39, R178). -/
theorem thresholdOf_eq_some {n : Nat} {x : Option Nat} :
    thresholdOf n = some x ↔ n = x.getD 65535 ∧ ∀ m ∈ x, m ≤ 30000 := by
  unfold thresholdOf
  cases x with
  | none =>
    simp only [Option.getD_none]
    split
    · simp_all
    · split <;> simp_all
  | some m =>
    simp only [Option.getD_some, Option.mem_def, Option.some.injEq, forall_eq']
    split
    · simp only [reduceCtorEq, Option.some.injEq, false_iff]
      omega
    · split
      · simp only [Option.some.injEq]
        omega
      · simp only [reduceCtorEq, false_iff]
        omega

theorem all_allZones {f : Fin 5 → Bool} : allZones.all f = true ↔ ∀ z, f z = true := by
  rw [List.all_eq_true]
  exact ⟨fun h z => h z (mem_allZones z), fun h z _ => h z⟩

theorem rateOk_iff (n : Nat) : rateOk n = true ↔ 10 ≤ n ∧ n ≤ 1000 ∧ n % 10 = 0 := by
  simp [rateOk]

/-- A bank is the one that a function fills exactly where every place reads so. -/
theorem eq_tab_iff {α : Type} {n : Nat} {v : Vector α n} {f : Fin n → α} :
    tab f = v ↔ ∀ i, rd v i = f i := by
  constructor
  · rintro rfl i
    exact rd_tab f i
  · intro h
    exact bank_ext fun i => (rd_tab f i).trans (h i).symm

theorem byteAt_spec (bytes : List Byte) (i : Nat) : byteAt bytes i = (bytes.getD i 0#8).toNat := rfl

theorem stageRowOf_eq_some {b : List Byte} {r : StageRow} :
    stageRowOf b = some r ↔
      (wordAt b 0 = r.rise.getD 65535 ∧ ∀ n ∈ r.rise, n ≤ 30000) ∧
      (wordAt b 2 = r.fall.getD 65535 ∧ ∀ n ∈ r.fall, n ≤ 30000) ∧
      (r.dwell = wordAt b 4 ∧ r.dwell ≤ 900) ∧
      ∀ z, rd r.levels z = wordAt b (6 + 2 * z.val) ∧ rd r.levels z ≤ 1000 := by
  rw [← thresholdOf_eq_some, ← thresholdOf_eq_some, forall_and, ← eq_tab_iff]
  unfold stageRowOf
  cases hr : thresholdOf (wordAt b 0) with
  | none => simp
  | some rise =>
    cases hf : thresholdOf (wordAt b 2) with
    | none => simp
    | some fall =>
      obtain ⟨_, _, _, levels⟩ := r
      simp only [all_allZones, Option.ite_none_right_eq_some, Option.some.injEq, StageRow.mk.injEq,
        decide_eq_true_eq]
      constructor
      · rintro ⟨⟨hd, hl⟩, rfl, rfl, rfl, rfl⟩
        exact ⟨rfl, rfl, ⟨rfl, hd⟩, rfl, hl⟩
      · rintro ⟨rfl, rfl, ⟨rfl, hd⟩, rfl, hl⟩
        exact ⟨⟨hd, hl⟩, rfl, rfl, rfl, rfl⟩

theorem portalRecordOf_eq_some {b : List Byte} {r : PortalRecord} :
    portalRecordOf b = some r ↔
      (r.enabled = bitAt b 0 0 ∧ r.activeLow = bitAt b 0 1 ∧ r.fireArmed = bitAt b 0 2 ∧
        r.lineArmed = bitAt b 0 3 ∧ ∀ z, rd r.zones z = bitAt b 1 z.val) ∧
      (byteAt b 2 = (r.slot0.map Fin.val).getD 255 ∧
        byteAt b 3 = (r.slot1.map Fin.val).getD 255) ∧
      (r.k = byteAt b 4 ∧ 20 ≤ r.k ∧ r.k ≤ 150) ∧
      (r.window = byteAt b 5 ∧ 4 ≤ r.window ∧ r.window ≤ 16) ∧
      (r.tStale = byteAt b 6 ∧ 2 ≤ r.tStale ∧ r.tStale ≤ 30) ∧
      (r.overlap = byteAt b 7 ∧ 2 ≤ r.overlap ∧ r.overlap ≤ 50) ∧
      (r.tHold = wordAt b 8 ∧ r.tHold ≤ 600) ∧
      (r.upRate = wordAt b 10 ∧ 10 ≤ r.upRate ∧ r.upRate ≤ 1000 ∧ r.upRate % 10 = 0) ∧
      (r.downRate = wordAt b 12 ∧ 10 ≤ r.downRate ∧ r.downRate ≤ 1000 ∧ r.downRate % 10 = 0) ∧
      ∀ z, rd r.boost z = wordAt b (14 + 2 * z.val) ∧ rd r.boost z ≤ 500 := by
  rw [← slotOf_eq_some, ← slotOf_eq_some, forall_and, ← eq_tab_iff, ← eq_tab_iff, ← rateOk_iff,
    ← rateOk_iff]
  unfold portalRecordOf
  cases h0 : slotOf (byteAt b 2) with
  | none => simp
  | some s0 =>
    cases h1 : slotOf (byteAt b 3) with
    | none => simp
    | some s1 =>
      obtain ⟨_, zones, _, _, _, _, _, _, _, _, _, boost, _, _, _⟩ := r
      simp only [all_allZones, Option.ite_none_right_eq_some, Option.some.injEq,
        PortalRecord.mk.injEq, decide_eq_true_eq]
      constructor
      · rintro ⟨⟨k1, k2, w1, w2, s1, s2, th, o1, o2, u, d, hb⟩, rfl, rfl, rfl, rfl, rfl, rfl, rfl, rfl,
          rfl, rfl, rfl, rfl, rfl, rfl, rfl⟩
        exact ⟨⟨rfl, rfl, rfl, rfl, rfl⟩, ⟨rfl, rfl⟩, ⟨rfl, k1, k2⟩, ⟨rfl, w1, w2⟩, ⟨rfl, s1, s2⟩,
          ⟨rfl, o1, o2⟩, ⟨rfl, th⟩, ⟨rfl, u⟩, ⟨rfl, d⟩, rfl, hb⟩
      · rintro ⟨⟨rfl, rfl, rfl, rfl, rfl⟩, ⟨rfl, rfl⟩, ⟨rfl, k1, k2⟩, ⟨rfl, w1, w2⟩, ⟨rfl, s1, s2⟩,
          ⟨rfl, o1, o2⟩, ⟨rfl, th⟩, ⟨rfl, u⟩, ⟨rfl, d⟩, rfl, hb⟩
        exact ⟨⟨k1, k2, w1, w2, s1, s2, th, o1, o2, u, d, hb⟩, rfl, rfl, rfl, rfl, rfl, rfl, rfl, rfl,
          rfl, rfl, rfl, rfl, rfl, rfl, rfl⟩

theorem channelSlotOf_eq_some_none {b : List Byte} :
    channelSlotOf b = some none ↔ bitAt b 0 0 = false := by
  unfold channelSlotOf
  cases hb : bitAt b 0 0 with
  | false => simp
  | true =>
    simp only [Bool.not_true, Bool.false_eq_true, if_false, reduceCtorEq, iff_false]
    split
    · simp
    · split
      · split <;> simp
      · simp

theorem channelSlotOf_eq_some_some {b : List Byte} {r : ChannelRecord} :
    channelSlotOf b = some (some r) ↔
      (bitAt b 0 0 = true ∧ r.switched = bitAt b 0 1 ∧ r.channel.val = byteAt b 1 ∧
        byteAt b 2 = (r.zone.map Fin.val).getD 7 ∧ r.failLevel = wordAt b 4 ∧
        r.minLevel = wordAt b 6) ∧
      (r.switched = true → (r.failLevel = 0 ∨ r.failLevel = 1000) ∧ r.minLevel = 0) ∧
      (r.switched = false → r.failLevel ≤ 1000 ∧ r.minLevel ≤ 300) := by
  rw [← zoneOf_eq_some]
  unfold channelSlotOf
  cases hb : bitAt b 0 0 with
  | false => simp
  | true =>
    cases hz : zoneOf (byteAt b 2) with
    | none => simp
    | some z =>
      obtain ⟨c, _, sw, _, _⟩ := r
      have hc := c.isLt
      by_cases h1 : byteAt b 1 < 32
      · simp only [Bool.not_true, Bool.false_eq_true, if_false, dif_pos h1,
          Option.ite_none_right_eq_some, Option.some.injEq, ChannelRecord.mk.injEq, Fin.ext_iff]
        constructor
        · rintro ⟨hok, hchan, rfl, rfl, rfl, rfl⟩
          cases hsw : bitAt b 0 1 <;> simp_all
        · rintro ⟨⟨-, rfl, hchan, rfl, rfl, rfl⟩, hon, hoff⟩
          cases hsw : bitAt b 0 1 <;> simp_all
      · simp [h1]
        omega

/-- Settles O19, by the inversion of each record's decoder. -/
theorem writtenRecordTakesItsPlaceInTheSet : Obligations.WrittenRecordTakesItsPlaceInTheSet := by
  intro set x bytes
  refine ⟨fun hc => ?_, fun hc => ?_, fun i hc hi => ?_, fun i hc hi => ?_,
    fun r => portalRecordOf_eq_some, fun r => stageRowOf_eq_some, channelSlotOf_eq_some_none,
    fun r => channelSlotOf_eq_some_some, fun i => ⟨rfl, rfl, ?_, fun n => rfl⟩⟩
  · simp only [PortalSet.writeRecord, hc]
  · simp only [PortalSet.writeRecord, hc, stageCountOf]
    split <;> rfl
  · have hlt : x.index < 12 := hi ▸ i.isLt
    have he : (⟨x.index, hlt⟩ : Fin 12) = i := Fin.ext hi
    simp only [PortalSet.writeRecord, hc, dif_pos hlt, he]
  · have hlt : x.index < 16 := hi ▸ i.isLt
    have he : (⟨x.index, hlt⟩ : Fin 16) = i := Fin.ext hi
    simp only [PortalSet.writeRecord, hc, dif_pos hlt, he]
  · rw [tripleAt, wordAt, byteAt_spec, byteAt_spec, byteAt_spec]
    ring

end Sys2Proof.Machine
end

section
namespace Sys2Proof.Machine

/-! ### Evaluations (O42) -/

/-- What a portal that starts becomes (R2, R27). -/
theorem startRunning_of_starts {p : Fin 4} {s : State}
    (h : s.baseOf p = .starting ∧ (s.statusOf p).starts = true) :
    startRunning p s = (s.setBase p .running).setEval p
      { s.eval p with source := if (s.eval p).source = .none then .lost else (s.eval p).source } :=
  if_pos h

theorem startRunning_of_not {p : Fin 4} {s : State}
    (h : ¬ (s.baseOf p = .starting ∧ (s.statusOf p).starts = true)) : startRunning p s = s := if_neg h

/-- A start changes no source status: a source of NONE becomes LOST beneath an INJECT claim only. -/
theorem startRunning_statusOf (p : Fin 4) (s : State) :
    (startRunning p s).statusOf p = s.statusOf p := by
  by_cases h : s.baseOf p = .starting ∧ (s.statusOf p).starts = true
  · rw [startRunning_of_starts h]
    obtain ⟨-, hst⟩ := h
    unfold State.statusOf at hst ⊢
    simp only [State.setEval_arbiters, State.setBase_arbiters, State.setEval_evals, State.arbiter,
      State.eval, rd_wr_self] at hst ⊢
    split
    · rfl
    · next hi =>
      rw [if_neg hi] at hst
      cases hs : (rd s.evals p).source <;> simp_all [MeterSource.status, SourceStatus.starts]
  · rw [startRunning_of_not h]

/-- Everything but the base state and the Portal Evaluator of one portal. -/
def SameButEvaluation (s t : State) : Prop :=
  SameClock s t ∧ SameSets s t ∧ SameMeters s t ∧ SameStage s t ∧ SameLight s t ∧ SameTrips s t ∧
    t.lines = s.lines ∧ t.ports = s.ports

theorem startRunning_same (p : Fin 4) (s : State) :
    SameButEvaluation s (startRunning p s) ∧ (startRunning p s).queues = s.queues ∧
      (startRunning p s).pair p = s.pair p := by
  unfold startRunning
  dsimp only
  split <;> exact ⟨⟨⟨rfl, rfl, rfl, rfl, rfl, rfl⟩, ⟨rfl, rfl, rfl, rfl⟩, rfl, ⟨rfl, rfl, rfl⟩,
    ⟨rfl, rfl⟩, rfl, rfl, rfl⟩, rfl, rfl⟩

/-- A post leaves all but the queues. -/
theorem postAll_same (e : Event) (s : State) :
    SameButEvaluation s (postAll e s) ∧ (postAll e s).base = s.base :=
  ⟨⟨⟨rfl, rfl, rfl, rfl, rfl, rfl⟩, ⟨rfl, rfl, rfl, rfl⟩, rfl, ⟨rfl, rfl, rfl⟩, ⟨rfl, rfl⟩, rfl, rfl,
    rfl⟩, rfl⟩

theorem SameButEvaluation.trans {s t u : State} (h : SameButEvaluation s t)
    (k : SameButEvaluation t u) : SameButEvaluation s u := by
  simp_all [SameButEvaluation, SameClock, SameSets, SameMeters, SameStage, SameLight, SameTrips]

theorem evaluateOnly_same (p : Fin 4) (s : State) :
    SameButEvaluation s (evaluateOnly p s) ∧ (evaluateOnly p s).base = (startRunning p s).base := by
  obtain ⟨hrun, -⟩ := startRunning_same p s
  have set (u : State) (e : Evaluator)
      (hu : SameButEvaluation (startRunning p s) u ∧ u.base = (startRunning p s).base) :
      SameButEvaluation s (u.setEval p e) ∧ (u.setEval p e).base = (startRunning p s).base :=
    ⟨hrun.trans hu.1, hu.2⟩
  unfold evaluateOnly
  dsimp only
  apply set
  split
  · exact ⟨by simp [SameButEvaluation, SameClock, SameSets, SameMeters, SameStage, SameLight,
      SameTrips], rfl⟩
  · exact postAll_same _ _

/-- The Portal Evaluator that an evaluation forms, before its mismatch test (R30, R31). -/
def State.formed (s : State) (p : Fin 4) : Evaluator :=
  let run := startRunning p s
  { run.eval p with
    status := s.statusOf p, luminance := run.luminanceOf p
    demand := if (s.statusOf p).offers then run.luminanceOf p * (run.record p).k / 100
      else (run.eval p).demand }

theorem evaluateOnly_eval (p : Fin 4) (s : State) :
    (evaluateOnly p s).eval p = (s.formed p).testMismatch (s.pair p) s.now := by
  obtain ⟨⟨hclock, -⟩, -, hpair⟩ := startRunning_same p s
  rw [State.formed, ← startRunning_statusOf p s, ← hpair, ← hclock.1]
  unfold evaluateOnly
  dsimp only
  rw [State.eval, State.setEval_evals, rd_wr_self]

/-- Every queue takes SOURCE_CHANGED exactly where the source status changes (R32). -/
theorem evaluateOnly_queue (p : Fin 4) (s : State) (seat : Seat) :
    (evaluateOnly p s).queue seat =
      if s.statusOf p = (s.eval p).status then s.queue seat
      else (s.queue seat).place (.sourceChanged p (s.statusOf p)) s.uptime := by
  obtain ⟨⟨hclock, -⟩, hq, -⟩ := startRunning_same p s
  have hstatus : ((startRunning p s).eval p).status = (s.eval p).status := by
    unfold startRunning
    dsimp only
    split
    · simp [State.eval]
    · rfl
  have hup : (startRunning p s).uptime = s.uptime := uptime_of_now hclock.1
  unfold evaluateOnly
  dsimp only
  rw [State.queue, State.setEval_queues, startRunning_statusOf, hstatus]
  split
  · rw [hq]
  · cases seat <;> simp [postAll, postTo, State.queue, State.setQueue, seatIx, hq, State.uptime,
      State.tenths, hclock.1]

/-- The mismatch test writes its own two items. -/
theorem testMismatch_eq (e : Evaluator) (pair : Option (Nat × Nat)) (now : Nat) :
    ∃ since reported,
      e.testMismatch pair now = { e with mismatchSince := since, mismatchReported := reported } := by
  have each (differ running : Bool) : ∃ since reported,
      (if differ then if running then e else { e with mismatchSince := some now }
        else { e with mismatchSince := none, mismatchReported := false }) =
        { e with mismatchSince := since, mismatchReported := reported } := by
    cases differ
    · exact ⟨_, _, rfl⟩
    · cases running <;> exact ⟨_, _, rfl⟩
  exact each _ _

/-- The mismatch timer at an evaluation (R33): it runs on or starts while the two estimates differ by more
than a quarter of the larger, and stops otherwise. -/
theorem testMismatch_timer (e : Evaluator) (pair : Option (Nat × Nat)) (now : Nat) :
    let differ : Prop := ∃ x ∈ pair, max x.1 x.2 < 4 * (max x.1 x.2 - min x.1 x.2)
    let f := e.testMismatch pair now
    (differ → f.mismatchReported = e.mismatchReported ∧
      f.mismatchSince =
        if e.mismatchReported = true ∨ e.mismatchSince ≠ none then e.mismatchSince else some now) ∧
    (¬ differ → f.mismatchReported = false ∧ f.mismatchSince = none) := by
  intro differ f
  have hd : differ ↔ (match pair with | some (a, b) => disagree a b | none => false) = true := by
    cases pair with
    | none => simp [differ]
    | some x =>
      obtain ⟨a, b⟩ := x
      simp only [differ, disagree, Option.mem_def, Option.some.injEq, exists_eq_left', decide_eq_true_eq]
  have hf : f = if (match pair with | some (a, b) => disagree a b | none => false) then
        if e.mismatchReported || e.mismatchSince.isSome then e else { e with mismatchSince := some now }
      else { e with mismatchSince := none, mismatchReported := false } := rfl
  constructor
  · intro h
    rw [hf, if_pos (hd.mp h)]
    by_cases hm : e.mismatchReported = true ∨ e.mismatchSince ≠ none
    · rw [if_pos hm, if_pos (by simpa [Option.isSome_iff_ne_none] using hm)]
      exact ⟨rfl, rfl⟩
    · rw [if_neg hm, if_neg (by simpa [Option.isSome_iff_ne_none] using hm)]
      exact ⟨rfl, rfl⟩
  · intro h
    rw [hf, if_neg (hd.not.mp h)]
    exact ⟨rfl, rfl⟩

/-- What the Stage Selector is handed leaves the Portal Evaluators and the base states. -/
theorem handOver_eval (p : Fin 4) (base : BaseState) (status : SourceStatus) (s : State) :
    (handOver p base status s).eval p = s.eval p ∧ (handOver p base status s).baseOf p = s.baseOf p :=
  handOver_keeps (P := fun u => u.eval p = s.eval p ∧ u.baseOf p = s.baseOf p)
    (C := fun k => k.portal = p)
    { place := fun _ h => h, scope := fun _ _ _ h => circuit_portal h
      zone := fun _ _ _ h => h, channel := fun _ _ _ _ h => h, enter := fun _ _ _ _ h => h
      post := fun _ _ _ _ h => h, selector := fun _ _ h => h, arbiter := fun _ _ _ h => h }
    base status s ⟨rfl, rfl⟩

/-- A portal starts exactly at LIVE or INJECTED (R2). -/
theorem starts_iff (x : SourceStatus) : x.starts = true ↔ x = .live ∨ x = .injected := by
  cases x <;> simp [SourceStatus.starts]

theorem offers_iff (x : SourceStatus) : x.offers = true ↔ x = .live ∨ x = .hold ∨ x = .injected := by
  cases x <;> simp [SourceStatus.offers]

/-- Settles O42: the evaluation up to its hand-over is `evaluateOnly`, and the hand-over leaves what it
formed. -/
theorem evaluationStartsThePortalAndHandsTheDemandOver :
    Obligations.EvaluationStartsThePortalAndHandsTheDemandOver := by
  intro p s t e before status starts pair differ
  obtain ⟨hsame, hbase⟩ := evaluateOnly_same p s
  obtain ⟨hteval, htbase⟩ : t.eval p = (evaluateOnly p s).eval p ∧
      t.baseOf p = (evaluateOnly p s).baseOf p := handOver_eval p _ _ _
  have heval : t.eval p = (s.formed p).testMismatch (s.pair p) s.now :=
    hteval.trans (evaluateOnly_eval p s)
  obtain ⟨since, reported, hmis⟩ := testMismatch_eq (s.formed p) (s.pair p) s.now
  have hstatus : status = s.statusOf p := by
    rw [show status = (t.eval p).status from rfl, heval, hmis, State.formed]
  have hsource : (t.eval p).source = ((startRunning p s).eval p).source := by
    rw [heval, hmis, State.formed]
  have hstarts : starts ↔ s.baseOf p = .starting ∧ (s.statusOf p).starts = true := by
    rw [starts_iff, ← hstatus]
  have hrunbase : (evaluateOnly p s).baseOf p = (startRunning p s).baseOf p := by
    rw [State.baseOf, hbase]
  have hkept : ((startRunning p s).eval p).mismatchReported = e.mismatchReported ∧
      ((startRunning p s).eval p).mismatchSince = e.mismatchSince := by
    by_cases hs : starts
    · rw [startRunning_of_starts (hstarts.mp hs)]
      simp [State.eval, e]
    · rw [startRunning_of_not (hstarts.not.mp hs)]
      exact ⟨rfl, rfl⟩
  have htimer := testMismatch_timer (s.formed p) (s.pair p) s.now
  rw [← heval, show (s.formed p).mismatchReported = e.mismatchReported from hkept.1,
    show (s.formed p).mismatchSince = e.mismatchSince from hkept.2] at htimer
  refine ⟨fun hs => ?_, fun hs => ?_, htimer.1, htimer.2,
    evaluateOnly p s, hteval.symm, htbase.symm, fun seat => ?_, ?_⟩
  · have hrun := startRunning_of_starts (hstarts.mp hs)
    rw [htbase, hrunbase, hsource, hrun]
    simp [State.baseOf, State.eval, e]
  · have hrun := startRunning_of_not (hstarts.not.mp hs)
    rw [htbase, hrunbase, hsource, hrun]
    exact ⟨rfl, rfl⟩
  · rw [hstatus]
    exact evaluateOnly_queue p s seat
  · obtain ⟨hclock, hsets, hmeters, hstage, hlight, htrips, hlines, hports⟩ := hsame
    have hdemand : (t.eval p).demand = ((evaluateOnly p s).eval p).demand := by rw [hteval]
    have hust : ((evaluateOnly p s).eval p).status = status := by rw [← hteval]
    refine ⟨hclock, hsets, hmeters, hstage, hlight, htrips, hlines, hports, fun hs => ?_,
      fun hs hr => ?_, fun hr => ⟨fun hl hb => ?_, fun hl hb => ?_, fun ho => ⟨fun hb => ?_, fun hb => ?_⟩⟩⟩
    · have hrun : (evaluateOnly p s).baseOf p = .running := by
        rw [hrunbase, startRunning_of_starts (hstarts.mp hs)]
        simp [State.baseOf]
      rw [hdemand]
      exact (if_pos hrun).trans (if_pos hs.1)
    · have hrun : (evaluateOnly p s).baseOf p ≠ .running := by
        rw [hrunbase, startRunning_of_not (hstarts.not.mp hs)]
        exact hr
      exact if_neg hrun
    all_goals
      have hne : ¬ s.baseOf p = .starting := by simp [hr]
      have hrun : (evaluateOnly p s).baseOf p = .running := by
        rw [hrunbase, startRunning_of_not fun h => hne h.1, hr]
      have hhand : t = _ := (if_pos hrun).trans (if_neg hne)
      rw [hust] at hhand
    · rw [hhand, if_pos hl]
      exact if_neg hb
    · rw [hhand, if_pos hl]
      exact if_pos hb
    all_goals
      have hlost : status ≠ .lost := by rcases ho with h | h | h <;> simp [h]
      rw [if_neg hlost] at hhand
    · rw [hdemand, hhand]
      exact if_pos hb
    · rw [hdemand, hhand]
      exact (if_neg hb).trans (if_pos ((offers_iff _).mpr ho))

end Sys2Proof.Machine
end

section
namespace Sys2Proof.Machine

/-! ### Validation (O20): first failures in general -/

/-- An index that a check reports: the least at which a rule fails, if it fails anywhere. -/
def LeastOf (fails : Nat → Prop) : Option Nat → Prop
  | none => ∀ i, ¬ fails i
  | some i => fails i ∧ ∀ j, fails j → i ≤ j

theorem LeastOf.congr {F G : Nat → Prop} {o : Option Nat} (h : ∀ i, F i ↔ G i) (hF : LeastOf F o) :
    LeastOf G o := by
  obtain rfl : F = G := funext fun i => propext (h i)
  exact hF

theorem failsAt_least (bad : Bool) (index : Nat) :
    LeastOf (fun i => i = index ∧ bad = true) (failsAt bad index) := by
  cases bad
  · exact fun i h => Bool.noConfusion h.2
  · exact ⟨⟨rfl, rfl⟩, fun j h => h.1.ge⟩

/-- The first of some things in ascending order that fails a test is the one of the least index. -/
theorem firstBad_least {α : Type} {l : List α} {index : α → Nat}
    (hl : l.Pairwise fun a b => index a < index b) (bad : α → Bool) :
    LeastOf (fun i => ∃ a ∈ l, i = index a ∧ bad a = true) (firstBad l bad index) := by
  induction l with
  | nil => simp [firstBad, LeastOf]
  | cons a rest ih =>
    obtain ⟨ha, hrest⟩ := List.pairwise_cons.mp hl
    by_cases hb : bad a = true
    · rw [firstBad, List.find?_cons_of_pos hb]
      refine ⟨⟨a, List.mem_cons_self, rfl, hb⟩, ?_⟩
      rintro j ⟨b, hmem, rfl, -⟩
      rcases List.mem_cons.mp hmem with rfl | hmem
      · exact le_rfl
      · exact (ha b hmem).le
    · rw [firstBad, List.find?_cons_of_neg hb]
      refine (ih hrest).congr fun i => ⟨?_, ?_⟩
      · rintro ⟨b, hmem, hi⟩
        exact ⟨b, List.mem_cons_of_mem a hmem, hi⟩
      · rintro ⟨b, hmem, hi⟩
        rcases List.mem_cons.mp hmem with rfl | hmem
        · exact absurd hi.2 hb
        · exact ⟨b, hmem, hi⟩

/-- Two slots are looked at in their order. -/
theorem twoSlots_least (a b : Bool) :
    LeastOf (fun i => (i = 0 ∧ a = true) ∨ (i = 1 ∧ b = true))
      (if a then some 0 else if b then some 1 else none) := by
  cases a <;> cases b <;> simp [LeastOf]

/-- A check of a list of checks reports the least index of its rule's failures. -/
def Checks (c : Nat × Option Nat) (rule : Nat × (Nat → Prop)) : Prop :=
  c.1 = rule.1 ∧ LeastOf rule.2 c.2

/-- What the first failing check of a list in ascending order says of the rules. -/
def FirstFailure (rules : List (Nat × (Nat → Prop))) : Option (Nat × Nat) → Prop
  | none => ∀ f ∈ rules, ∀ i, ¬ f.2 i
  | some (n, i) => (∃ f ∈ rules, f.1 = n ∧ f.2 i) ∧
      ∀ f ∈ rules, ∀ j, f.2 j → n < f.1 ∨ (n = f.1 ∧ i ≤ j)

theorem findSome_firstFailure {checks : List (Nat × Option Nat)} {rules : List (Nat × (Nat → Prop))}
    (h : List.Forall₂ Checks checks rules) (hs : (rules.map Prod.fst).Pairwise (· < ·)) :
    FirstFailure rules (checks.findSome? fun c => c.2.map fun i => (c.1, i)) := by
  induction h with
  | nil => simp [FirstFailure]
  | @cons c f checks rules hc htail ih =>
    obtain ⟨n, o⟩ := c
    obtain ⟨rfl, hleast⟩ := hc
    obtain ⟨hlt, hs⟩ := List.pairwise_cons.mp hs
    have later : ∀ g ∈ rules, f.1 < g.1 := fun g hg => hlt g.1 (List.mem_map_of_mem hg)
    cases o with
    | some i =>
      refine ⟨⟨f, List.mem_cons_self, rfl, hleast.1⟩, fun g hg j hj => ?_⟩
      rcases List.mem_cons.mp hg with rfl | hg
      · exact Or.inr ⟨rfl, hleast.2 j hj⟩
      · exact Or.inl (later g hg)
    | none =>
      have hrest := ih hs
      rw [List.findSome?_cons_of_isNone rfl]
      cases hf : checks.findSome? fun c => c.2.map fun i => (c.1, i) with
      | none =>
        rw [hf] at hrest
        exact List.forall_mem_cons.mpr ⟨hleast, hrest⟩
      | some x =>
        rw [hf] at hrest
        obtain ⟨⟨g, hg, hfail⟩, hmin⟩ := hrest
        exact ⟨⟨g, List.mem_cons_of_mem f hg, hfail⟩,
          List.forall_mem_cons.mpr ⟨fun j hj => absurd hj (hleast j), hmin⟩⟩

/-- Of portals in ascending order, the first with a value is the lowest. -/
theorem findSome_lowest {f : Fin 4 → Option Nat} {l : List (Fin 4)} (hl : l.Pairwise (· < ·))
    (value : Nat) :
    l.findSome? f = some value ↔ ∃ p ∈ l, f p = some value ∧ ∀ q ∈ l, q < p → f q = none := by
  induction l with
  | nil => simp
  | cons p rest ih =>
    obtain ⟨hlt, hrest⟩ := List.pairwise_cons.mp hl
    cases hf : f p with
    | some v =>
      rw [List.findSome?_cons_of_isSome (by simp [hf]), hf]
      constructor
      · intro h
        refine ⟨p, List.mem_cons_self, hf.trans h, fun q hq hqp => ?_⟩
        rcases List.mem_cons.mp hq with rfl | hq
        · exact absurd hqp (lt_irrefl q)
        · exact absurd hqp (hlt q hq).not_gt
      · rintro ⟨q, hq, hqv, hnone⟩
        rcases List.mem_cons.mp hq with rfl | hq
        · exact hf ▸ hqv
        · rw [hnone p List.mem_cons_self (hlt q hq)] at hf
          cases hf
    | none =>
      rw [List.findSome?_cons_of_isNone (by simp [hf]), ih hrest]
      constructor
      · rintro ⟨q, hq, hqv, hnone⟩
        exact ⟨q, List.mem_cons_of_mem p hq, hqv, List.forall_mem_cons.mpr ⟨fun _ => hf, hnone⟩⟩
      · rintro ⟨q, hq, hqv, hnone⟩
        rcases List.mem_cons.mp hq with rfl | hq
        · rw [hf] at hqv
          cases hqv
        · exact ⟨q, hq, hqv, fun r hr => hnone r (List.mem_cons_of_mem p hr)⟩

theorem portals_ascending (h : Header) : h.portals.Pairwise (· < ·) :=
  List.Pairwise.filter _ (by decide)

/-! ### Validation (O20): the rules -/

theorem circuits_ascending (x : PortalSet) (p : Fin 4) :
    (x.circuits p).Pairwise fun k j => k.addr.val < j.addr.val := by
  unfold PortalSet.circuits
  rw [List.pairwise_filterMap]
  have hasc : allAddrs.Pairwise fun a b => a.val < b.val := by decide
  refine hasc.imp fun hab k hk j hj => ?_
  obtain ⟨_, _, rfl⟩ := Option.map_eq_some_iff.mp hk
  obtain ⟨_, _, rfl⟩ := Option.map_eq_some_iff.mp hj
  exact hab

theorem zones_ascending : allZones.Pairwise fun z w => z.val < w.val := by decide

theorem stages_ascending (x : PortalSet) (low : Nat) : (x.stages low).Pairwise fun i j => id i < id j :=
  List.Pairwise.filter _ List.pairwise_lt_range

theorem mem_stages {x : PortalSet} {low i : Nat} : i ∈ x.stages low ↔ i < x.stageCount ∧ low ≤ i := by
  simp [PortalSet.stages]

theorem exists_circuit {x : PortalSet} {p : Fin 4} {Q : Circuit → Prop} :
    (∃ k ∈ x.circuits p, Q k) ↔ ∃ a r, rd x.slots a = some r ∧ Q { portal := p, addr := a, cfg := r } := by
  constructor
  · rintro ⟨k, hk, hq⟩
    obtain ⟨rfl, hr⟩ := mem_circuits.mp hk
    exact ⟨_, _, hr, hq⟩
  · rintro ⟨a, r, hr, hq⟩
    exact ⟨_, mem_circuits.mpr ⟨rfl, hr⟩, hq⟩

theorem names_iff {x : PortalSet} {c : Fin 32} :
    x.names c = true ↔ ∃ a r, rd x.slots a = some r ∧ r.channel = c := by
  rw [PortalSet.names, PortalSet.find, List.find?_isSome, exists_circuit]
  simp

theorem mem_otherSets {s : State} {p : Fin 4} {y : PortalSet} :
    y ∈ s.otherSets p ↔ ∃ q, q ≠ p ∧ (y = s.set q ∨ ∃ w ∈ (s.edit q).pendingSet, y = w.set) := by
  simp only [State.otherSets, List.mem_flatMap, List.mem_filter, mem_allPortals, true_and, bne_iff_ne,
    List.mem_cons, Option.mem_toList, Option.map_eq_some_iff, Option.mem_def, eq_comm (b := y)]

theorem mem_lowerShadows {s : State} {named : List (Fin 4)} {p : Fin 4} {y : PortalSet} :
    y ∈ s.lowerShadows named p ↔ ∃ q ∈ named, q < p ∧ ∃ w ∈ (s.edit q).shadow, y = w.set := by
  simp [State.lowerShadows, eq_comm, and_assoc]

theorem binds_iff {r : PortalRecord} {m : Fin 8} :
    r.binds m = true ↔ r.slot0 = some m ∨ r.slot1 = some m := by
  simp [PortalRecord.binds]

theorem boundElsewhere_least {r : PortalRecord} {others : List PortalSet} {sets : PortalSet → Prop}
    (h : ∀ y, y ∈ others ↔ sets y) :
    LeastOf (fun i =>
      (i = 0 ∧ ∃ m ∈ r.slot0, ∃ y, sets y ∧ (y.record.slot0 = some m ∨ y.record.slot1 = some m)) ∨
      (i = 1 ∧ ∃ m ∈ r.slot1, ∃ y, sets y ∧ (y.record.slot0 = some m ∨ y.record.slot1 = some m)))
      (boundElsewhere r others) := by
  have hslot (slot : Option (Fin 8)) :
      (slot.any fun m => others.any fun y => y.record.binds m) = true ↔
        ∃ m ∈ slot, ∃ y, sets y ∧ (y.record.slot0 = some m ∨ y.record.slot1 = some m) := by
    simp [Option.any_eq_true, binds_iff, h]
  refine (twoSlots_least _ _).congr fun i => ?_
  rw [hslot, hslot]

section Rules

variable (s : State) (named : List (Fin 4)) (p : Fin 4) (x : PortalSet)

/-- A record stands in slot `a` of a set. -/
def PortalSet.holds (x : PortalSet) (a : Fin 16) (k : ChannelRecord) : Prop := rd x.slots a = some k

/-- A set names a channel. -/
def PortalSet.has (y : PortalSet) (c : Fin 32) : Prop := ∃ a k, y.holds a k ∧ k.channel = c

/-- The sets that checks 60 and 62 look at. -/
def State.other (s : State) (p : Fin 4) (y : PortalSet) : Prop :=
  ∃ q, q ≠ p ∧ (y = s.set q ∨ ∃ w ∈ (s.edit q).pendingSet, y = w.set)

/-- The sets that checks 61 and 63 look at. -/
def State.lower (s : State) (named : List (Fin 4)) (p : Fin 4) (y : PortalSet) : Prop :=
  ∃ q ∈ named, q < p ∧ ∃ w ∈ (s.edit q).shadow, y = w.set

/-- A binding slot, by its number, names a meter that one of some sets binds. -/
def PortalSet.taken (x : PortalSet) (sets : PortalSet → Prop) (i : Nat) : Prop :=
  (i = 0 ∧ ∃ m ∈ x.record.slot0, ∃ y, sets y ∧ (y.record.slot0 = some m ∨ y.record.slot1 = some m)) ∨
    (i = 1 ∧ ∃ m ∈ x.record.slot1, ∃ y, sets y ∧ (y.record.slot0 = some m ∨ y.record.slot1 = some m))

/-- Rules 1 to 5 of `CheckFails` (R10): each check's number, and the indexes at which it fails. -/
def recordRules : List (Nat × (Nat → Prop)) :=
  let r := x.record
  let present (z : Fin 5) : Prop := rd r.zones z = true
  [ (1, fun i => i = 0 ∧ r.enabled = true ∧ ¬ present 0),
    (2, fun i => r.enabled = false ∧ ∃ z : Fin 5, i = z.val ∧ present z),
    (3, fun i => r.enabled = false ∧ ((i = 0 ∧ r.slot0 ≠ none) ∨ (i = 1 ∧ r.slot1 ≠ none))),
    (4, fun i => i = 1 ∧ r.slot0 ≠ none ∧ r.slot0 = r.slot1),
    (5, fun i => ∃ z : Fin 5, i = z.val ∧ ¬ present z ∧ 0 < rd r.boost z) ]

/-- Rules 20 to 24 (R43). -/
def thresholdRules : List (Nat × (Nat → Prop)) :=
  [ (20, fun i => i = 0 ∧ ((x.row 0).rise ≠ none ∨ (x.row 0).fall ≠ none)),
    (21, fun i => 1 ≤ i ∧ i < x.stageCount ∧ ((x.row i).rise = none ∨ (x.row i).fall = none)),
    (22, fun i => 1 ≤ i ∧ i < x.stageCount ∧ ∃ u ∈ (x.row i).rise, ∃ d ∈ (x.row i).fall, u ≤ d),
    (23, fun i =>
      2 ≤ i ∧ i < x.stageCount ∧ ∃ u ∈ (x.row i).rise, ∃ v ∈ (x.row (i - 1)).rise, u ≤ v),
    (24, fun i =>
      2 ≤ i ∧ i < x.stageCount ∧ ∃ u ∈ (x.row i).fall, ∃ v ∈ (x.row (i - 1)).fall, u ≤ v) ]

/-- Rules 25 to 34 (R44). -/
def levelRules : List (Nat × (Nat → Prop)) :=
  let present (z : Fin 5) : Prop := rd x.record.zones z = true
  (allZones.map fun z => (25 + z.val, fun i =>
    i < x.stageCount ∧ ¬ present z ∧ 0 < rd (x.row i).levels z)) ++
  (allZones.map fun z => (30 + z.val, fun i =>
    1 ≤ i ∧ i < x.stageCount ∧ present z ∧ rd (x.row i).levels z < rd (x.row (i - 1)).levels z))

/-- Rules 41 to 47 (R12). -/
def channelRules : List (Nat × (Nat → Prop)) :=
  let r := x.record
  let present (z : Fin 5) : Prop := rd r.zones z = true
  [ (41, fun i => r.enabled = false ∧ ∃ a k, i = a.val ∧ x.holds a k),
    (42, fun i => ∃ a k, i = a.val ∧ x.holds a k ∧ ∃ z ∈ k.zone, ¬ present z),
    (43, fun i => ∃ a k b j, i = a.val ∧ x.holds a k ∧ x.holds b j ∧ b < a ∧ j.channel = k.channel),
    (44, fun i => ∃ z : Fin 5, i = z.val ∧ present z ∧
      ∀ a k, x.holds a k → ¬ (k.zone = some z ∧ k.switched = false)),
    (45, fun i => ∃ z : Fin 5, i = z.val ∧ present z ∧ 0 < rd r.boost z ∧
      ∀ a k, x.holds a k → ¬ (k.zone = some z ∧ k.switched = true)),
    (46, fun i => ∃ a k, i = a.val ∧ x.holds a k ∧ k.switched = true ∧ ∃ z ∈ k.zone, rd r.boost z = 0),
    (47, fun i => ∃ a k b j, i = a.val ∧ x.holds a k ∧ x.holds b j ∧ b < a ∧ k.switched = true ∧
      j.switched = true ∧ ∃ z ∈ k.zone, j.zone = some z) ]

/-- Rules 60 to 63 (R163). -/
def portalRules : List (Nat × (Nat → Prop)) :=
  [ (60, fun i => ∃ a k, i = a.val ∧ x.holds a k ∧ ∃ y, s.other p y ∧ y.has k.channel),
    (61, fun i => ∃ a k, i = a.val ∧ x.holds a k ∧ ∃ y, s.lower named p y ∧ y.has k.channel),
    (62, fun i => x.taken (s.other p) i), (63, fun i => x.taken (s.lower named p) i) ]

/-- The rules of `CheckFails` as a table. -/
def checkRules : List (Nat × (Nat → Prop)) :=
  recordRules x ++ thresholdRules x ++ levelRules x ++ channelRules x ++ portalRules s named p x

/-- `CheckFails` reads the table. -/
theorem checkFails_iff (n i : Nat) :
    CheckFails s named p x n i ↔ ∃ f ∈ checkRules s named p x, f.1 = n ∧ f.2 i := by
  simp only [checkRules, recordRules, thresholdRules, levelRules, channelRules, portalRules,
    List.mem_append, List.mem_cons, List.not_mem_nil, or_false, or_and_right,
    exists_or, exists_eq_left, List.mem_map, mem_allZones, true_and, exists_exists_eq_and, or_assoc,
    eq_comm (b := n)]
  rfl

theorem checkRules_ascending : ((checkRules s named p x).map Prod.fst).Pairwise (· < ·) := by
  have hkeys : (checkRules s named p x).map Prod.fst =
      [1, 2, 3, 4, 5, 20, 21, 22, 23, 24, 25, 26, 27, 28, 29, 30, 31, 32, 33, 34, 41, 42, 43, 44, 45, 46,
        47, 60, 61, 62, 63] := rfl
  rw [hkeys]
  decide

/-- A check whose first failure is looked for among circuits. -/
theorem circuits_least {F : Nat → Prop} (bad : Circuit → Bool)
    (h : ∀ i, (∃ a k, i = a.val ∧ x.holds a k ∧ bad { portal := p, addr := a, cfg := k } = true) ↔ F i) :
    LeastOf F (firstBad (x.circuits p) bad fun k => k.addr.val) := by
  refine (firstBad_least (circuits_ascending x p) bad).congr fun i => ?_
  rw [← h, exists_circuit]
  exact exists_congr fun a => exists_congr fun k => and_left_comm

/-- A check whose first failure is looked for among zones. -/
theorem zones_least {F : Nat → Prop} (bad : Fin 5 → Bool)
    (h : ∀ i, (∃ z : Fin 5, i = z.val ∧ bad z = true) ↔ F i) :
    LeastOf F (firstBad allZones bad Fin.val) := by
  refine (firstBad_least zones_ascending bad).congr fun i => ?_
  rw [← h]
  simp [mem_allZones]

/-- A check whose first failure is looked for among the stages from `low` up. -/
theorem stages_least {F : Nat → Prop} (low : Nat) (bad : Nat → Bool)
    (h : ∀ i, (low ≤ i ∧ i < x.stageCount ∧ bad i = true) ↔ F i) :
    LeastOf F (firstBad (x.stages low) bad id) := by
  refine (firstBad_least (stages_ascending x low) bad).congr fun i => ?_
  rw [← h]
  simp only [mem_stages, id]
  constructor
  · rintro ⟨a, ⟨h1, h2⟩, rfl, hb⟩
    exact ⟨h2, h1, hb⟩
  · rintro ⟨h2, h1, hb⟩
    exact ⟨i, ⟨h1, h2⟩, rfl, hb⟩

theorem thresholdsAtLeast_iff (a b : Option Nat) :
    thresholdsAtLeast a b = true ↔ ∃ n ∈ b, ∃ m ∈ a, n ≤ m := by
  unfold thresholdsAtLeast
  cases a <;> cases b <;> simp

theorem lowerTwin_iff (same : Circuit → Circuit → Bool) (k : Circuit) :
    lowerTwin (x.circuits p) same k = true ↔ ∃ b j, x.holds b j ∧ b < k.addr ∧
      same { portal := p, addr := b, cfg := j } k = true := by
  rw [lowerTwin, List.any_eq_true, exists_circuit]
  simp [PortalSet.holds]

theorem any_circuit_iff (f : Circuit → Bool) :
    (x.circuits p).any f = true ↔ ∃ a k, x.holds a k ∧ f { portal := p, addr := a, cfg := k } = true := by
  rw [List.any_eq_true, exists_circuit]
  rfl

theorem recordChecks_rules : List.Forall₂ Checks (recordChecks x.record) (recordRules x) := by
  refine .cons ⟨rfl, ?_⟩ (.cons ⟨rfl, ?_⟩ (.cons ⟨rfl, ?_⟩ (.cons ⟨rfl, ?_⟩ (.cons ⟨rfl, ?_⟩ .nil))))
  · exact (failsAt_least _ _).congr fun i => by simp
  · exact zones_least _ fun i => by simp; tauto
  · dsimp only
    cases x.record.enabled with
    | true => simp [LeastOf]
    | false => exact (twoSlots_least _ _).congr fun i => by simp [Option.isSome_iff_ne_none]
  · exact (failsAt_least _ _).congr fun i => by simp [Option.isSome_iff_ne_none]
  · exact zones_least _ fun i => by simp [Nat.pos_iff_ne_zero]

theorem thresholdChecks_rules : List.Forall₂ Checks (thresholdChecks x) (thresholdRules x) := by
  refine .cons ⟨rfl, ?_⟩ (.cons ⟨rfl, ?_⟩ (.cons ⟨rfl, ?_⟩ (.cons ⟨rfl, ?_⟩ (.cons ⟨rfl, ?_⟩ .nil))))
  · exact (failsAt_least _ _).congr fun i => by simp [Option.isSome_iff_ne_none]
  · exact stages_least x 1 _ fun i => by simp
  · exact stages_least x 1 _ fun i => by rw [thresholdsAtLeast_iff]
  · exact stages_least x 2 _ fun i => by rw [thresholdsAtLeast_iff]
  · exact stages_least x 2 _ fun i => by rw [thresholdsAtLeast_iff]

theorem levelChecks_rules : List.Forall₂ Checks (levelChecks x) (levelRules x) := by
  refine List.rel_append ?_ ?_ <;>
    rw [List.forall₂_map_left_iff, List.forall₂_map_right_iff, List.forall₂_same] <;>
    refine fun z _ => ⟨rfl, stages_least x _ _ fun i => ?_⟩
  · simp [Nat.pos_iff_ne_zero]
  · simp

theorem channelChecks_rules : List.Forall₂ Checks (channelChecks x p) (channelRules x) := by
  refine .cons ⟨rfl, ?_⟩ (.cons ⟨rfl, ?_⟩ (.cons ⟨rfl, ?_⟩ (.cons ⟨rfl, ?_⟩ (.cons ⟨rfl, ?_⟩
    (.cons ⟨rfl, ?_⟩ (.cons ⟨rfl, ?_⟩ .nil))))))
  · exact circuits_least p x _ fun i => by simp; tauto
  · exact circuits_least p x _ fun i => by simp [Option.any_eq_true]
  · exact circuits_least p x _ fun i => by simp [lowerTwin_iff]
  · refine zones_least _ fun i => ?_
    simp only [Bool.and_eq_true, Bool.not_eq_true', ← Bool.not_eq_true, any_circuit_iff]
    simp
  · refine zones_least _ fun i => ?_
    simp only [Bool.and_eq_true, Bool.not_eq_true', ← Bool.not_eq_true, any_circuit_iff]
    simp [Nat.pos_iff_ne_zero, and_assoc]
  · exact circuits_least p x _ fun i => by simp [Option.any_eq_true]
  · refine circuits_least p x _ fun i => ?_
    have one_zone (j k : ChannelRecord) :
        (((j.switched = true ∧ k.switched = true) ∧ k.zone.isSome = true) ∧ j.zone = k.zone) ↔
          k.switched = true ∧ j.switched = true ∧ ∃ z, k.zone = some z ∧ j.zone = some z := by
      cases k.zone <;> simp [and_assoc, and_left_comm]
    simp [lowerTwin_iff, one_zone]

theorem portalChecks_rules : List.Forall₂ Checks
    (portalChecks x p (s.otherSets p) (s.lowerShadows named p)) (portalRules s named p x) := by
  have hnames (c : Fin 32) (y : PortalSet) : y.names c = true ↔ y.has c := names_iff
  refine .cons ⟨rfl, ?_⟩ (.cons ⟨rfl, ?_⟩ (.cons ⟨rfl, ?_⟩ (.cons ⟨rfl, ?_⟩ .nil)))
  · exact circuits_least p x _ fun i => by simp [hnames, mem_otherSets, State.other]
  · exact circuits_least p x _ fun i => by simp [hnames, mem_lowerShadows, State.lower]
  · exact boundElsewhere_least fun _ => mem_otherSets
  · exact boundElsewhere_least fun _ => mem_lowerShadows

/-- The first failing check of a set, at its lowest index, by the rules. -/
theorem firstFailure_spec : FirstFailure (checkRules s named p x)
    (firstFailure x p (s.otherSets p) (s.lowerShadows named p)) :=
  findSome_firstFailure (List.rel_append (List.rel_append (List.rel_append (List.rel_append
    (recordChecks_rules x) (thresholdChecks_rules x)) (levelChecks_rules x)) (channelChecks_rules p x))
    (portalChecks_rules s named p x)) (checkRules_ascending s named p x)

theorem firstFailure_none :
    firstFailure x p (s.otherSets p) (s.lowerShadows named p) = none ↔
      ∀ n i, ¬ CheckFails s named p x n i := by
  have spec := firstFailure_spec s named p x
  constructor
  · intro h n i hf
    rw [h] at spec
    obtain ⟨f, hf, -, hfi⟩ := (checkFails_iff s named p x n i).mp hf
    exact spec f hf i hfi
  · intro h
    cases ho : firstFailure x p (s.otherSets p) (s.lowerShadows named p) with
    | none => rfl
    | some y =>
      rw [ho] at spec
      exact absurd ((checkFails_iff s named p x y.1 y.2).mpr spec.1) (h y.1 y.2)

theorem firstFailure_some (n i : Nat) :
    firstFailure x p (s.otherSets p) (s.lowerShadows named p) = some (n, i) ↔
      CheckFails s named p x n i ∧
        ∀ m j, CheckFails s named p x m j → n < m ∨ (n = m ∧ i ≤ j) := by
  have spec := firstFailure_spec s named p x
  have least {m j : Nat} (h : firstFailure x p (s.otherSets p) (s.lowerShadows named p) = some (m, j)) :
      CheckFails s named p x m j ∧
        ∀ m' j', CheckFails s named p x m' j' → m < m' ∨ (m = m' ∧ j ≤ j') := by
    rw [h] at spec
    refine ⟨(checkFails_iff s named p x m j).mpr spec.1, fun m' j' hf => ?_⟩
    obtain ⟨f, hmem, rfl, hfj⟩ := (checkFails_iff s named p x m' j').mp hf
    exact spec.2 f hmem j' hfj
  refine ⟨least, fun ⟨hfail, hmin⟩ => ?_⟩
  cases ho : firstFailure x p (s.otherSets p) (s.lowerShadows named p) with
  | none => exact absurd hfail ((firstFailure_none s named p x).mp ho n i)
  | some y =>
    obtain ⟨hfy, hminy⟩ := least ho
    have h1 := hmin y.1 y.2 hfy
    have h2 := hminy n i hfail
    have : y = (n, i) := Prod.ext (by omega) (by omega)
    rw [this]

end Rules

/-- The INVALID value of one named portal's shadow, if a check fails. -/
def State.shadowFailure (s : State) (named : List (Fin 4)) (p : Fin 4) : Option Nat :=
  match (s.edit p).shadow with
  | none => none
  | some x => (firstFailure x.set p (s.otherSets p) (s.lowerShadows named p)).map (invalidValue p)

theorem shadowFailure_none {s : State} {named : List (Fin 4)} {p : Fin 4} :
    s.shadowFailure named p = none ↔
      ∀ x ∈ (s.edit p).shadow, ∀ n i, ¬ CheckFails s named p x.set n i := by
  unfold State.shadowFailure
  cases (s.edit p).shadow with
  | none => simp
  | some x => simp [firstFailure_none]

theorem shadowFailure_some {s : State} {named : List (Fin 4)} {p : Fin 4} {value : Nat} :
    s.shadowFailure named p = some value ↔
      ∃ x ∈ (s.edit p).shadow, ∃ n i, value = p.val * 16384 + n * 256 + i ∧
        CheckFails s named p x.set n i ∧
        ∀ m j, CheckFails s named p x.set m j → n < m ∨ (n = m ∧ i ≤ j) := by
  unfold State.shadowFailure
  cases (s.edit p).shadow with
  | none => simp
  | some x =>
    simp only [Option.map_eq_some_iff, Option.mem_def, Option.some.injEq, exists_eq_left', Prod.exists,
      firstFailure_some, invalidValue, eq_comm (b := value)]
    exact exists_congr fun n => exists_congr fun i => and_comm

/-- Settles O20: the table of the rules gives each portal's first failure, and the lowest portal's is
reported. -/
theorem validationReportsTheFirstFailedCheck : Obligations.ValidationReportsTheFirstFailedCheck := by
  intro h s
  have hval : s.validation h.portals = h.portals.findSome? (s.shadowFailure h.portals) := rfl
  refine ⟨?_, fun value => ?_⟩
  · rw [hval, List.findSome?_eq_none_iff]
    exact forall_congr' fun p => imp_congr_right fun _ => shadowFailure_none
  · rw [hval, findSome_lowest (portals_ascending h)]
    refine exists_congr fun p => and_congr_right fun _ => ?_
    simp only [shadowFailure_some, shadowFailure_none]
    constructor
    · rintro ⟨⟨x, hx, n, i, hv, hf, hmin⟩, hlow⟩
      exact ⟨x, hx, n, i, hv, hf, hmin, hlow⟩
    · rintro ⟨x, hx, n, i, hv, hf, hmin, hlow⟩
      exact ⟨⟨x, hx, n, i, hv, hf, hmin⟩, hlow⟩

end Sys2Proof.Machine
end

section
namespace Sys2Proof.Machine

/-! ### Events stay at their portal (O60) -/

/-- The channel whose farewell the transaction in progress on line `p` carries, once no set names it. -/
def State.departs (s : State) (p : Fin 4) (c : Fin 32) : Prop :=
  s.assignment c = none ∧ ∃ x, (s.lampLine p).tx = some x ∧ x.departing = some c

/-- From `s` to `u` nothing was touched but the blocks of portal `p`, its line, the channels that its set
names, the queues, and a channel whose farewell completes. -/
structure Local (p : Fin 4) (s u : State) : Prop where
  others : ∀ q, q ≠ p → SamePortal q s u ∧ u.lampLine q = s.lampLine q
  channels : ∀ c, (∀ k ∈ s.circuits p, k.cfg.channel ≠ c) → u.channel c = s.channel c ∨
    (u.channel c = Channel.unassigned ∧ s.departs p c)
  active : u.active = s.active
  now : u.now = s.now
  meters : u.meters = s.meters
  ports : u.ports = s.ports
  counter : u.claimCounter = s.claimCounter
  image : u.image = s.image
  storing : u.storing = s.storing

theorem Local.refl (p : Fin 4) (s : State) : Local p s s :=
  ⟨fun _ _ => ⟨⟨rfl, rfl, rfl, rfl, rfl, rfl, rfl, rfl⟩, rfl⟩, fun _ _ => Or.inl rfl, rfl, rfl, rfl, rfl,
    rfl, rfl, rfl⟩

namespace Local

variable {p : Fin 4} {s u : State}

/-- A write that leaves everything but the portal's own blocks, its line and the queues. -/
theorem write {v : State} (h : Local p s u)
    (ho : ∀ q, q ≠ p → SamePortal q u v ∧ v.lampLine q = u.lampLine q)
    (hc : v.channels = u.channels) (ha : v.active = u.active) (hn : v.now = u.now)
    (hm : v.meters = u.meters) (hp : v.ports = u.ports) (hcc : v.claimCounter = u.claimCounter)
    (hi : v.image = u.image) (hst : v.storing = u.storing) : Local p s v where
  others := fun q hq => by
    obtain ⟨⟨a1, a2, a3, a4, a5, a6, a7, a8⟩, a9⟩ := h.others q hq
    obtain ⟨⟨b1, b2, b3, b4, b5, b6, b7, b8⟩, b9⟩ := ho q hq
    exact ⟨⟨b1.trans a1, b2.trans a2, b3.trans a3, b4.trans a4, b5.trans a5, b6.trans a6, b7.trans a7,
      b8.trans a8⟩, b9.trans a9⟩
  channels := fun c hn => by
    rw [State.channel, hc]
    exact h.channels c hn
  active := ha.trans h.active
  now := hn.trans h.now
  meters := hm.trans h.meters
  ports := hp.trans h.ports
  counter := hcc.trans h.counter
  image := hi.trans h.image
  storing := hst.trans h.storing

theorem setEval (x : Evaluator) (h : Local p s u) : Local p s (u.setEval p x) :=
  h.write (fun _ hq => ⟨⟨rfl, rd_wr_of_ne _ _ hq.symm, rfl, rfl, rfl, rfl, rfl, rfl⟩, rfl⟩)
    rfl rfl rfl rfl rfl rfl rfl rfl

theorem setBase (x : BaseState) (h : Local p s u) : Local p s (u.setBase p x) :=
  h.write (fun _ hq => ⟨⟨rd_wr_of_ne _ _ hq.symm, rfl, rfl, rfl, rfl, rfl, rfl, rfl⟩, rfl⟩)
    rfl rfl rfl rfl rfl rfl rfl rfl

theorem setSelector (x : Selector) (h : Local p s u) : Local p s (u.setSelector p x) :=
  h.write (fun _ hq => ⟨⟨rfl, rfl, rd_wr_of_ne _ _ hq.symm, rfl, rfl, rfl, rfl, rfl⟩, rfl⟩)
    rfl rfl rfl rfl rfl rfl rfl rfl

theorem setArbiter (x : Arbiter) (h : Local p s u) : Local p s (u.setArbiter p x) :=
  h.write (fun _ hq => ⟨⟨rfl, rfl, rfl, rd_wr_of_ne _ _ hq.symm, rfl, rfl, rfl, rfl⟩, rfl⟩)
    rfl rfl rfl rfl rfl rfl rfl rfl

theorem setZone (z : Fin 5) (x : Option Zone) (h : Local p s u) : Local p s (u.setZone p z x) :=
  h.write (fun _ hq => ⟨⟨rfl, rfl, rfl, rfl, rd_wr_of_ne _ _ hq.symm, rfl, rfl, rfl⟩, rfl⟩)
    rfl rfl rfl rfl rfl rfl rfl rfl

theorem setTrip (x : TripUnit) (h : Local p s u) : Local p s (u.setTrip p x) :=
  h.write (fun _ hq => ⟨⟨rfl, rfl, rfl, rfl, rfl, rd_wr_of_ne _ _ hq.symm, rfl, rfl⟩, rfl⟩)
    rfl rfl rfl rfl rfl rfl rfl rfl

theorem setLine (x : LampLine) (h : Local p s u) : Local p s (u.setLine p x) :=
  h.write (fun _ hq => ⟨⟨rfl, rfl, rfl, rfl, rfl, rfl, rfl, rfl⟩, rd_wr_of_ne _ _ hq.symm⟩)
    rfl rfl rfl rfl rfl rfl rfl rfl

theorem setPins (v : Vector Bool 4) (h : Local p s u) : Local p s { u with firePins := v } :=
  h.write (fun _ _ => ⟨⟨rfl, rfl, rfl, rfl, rfl, rfl, rfl, rfl⟩, rfl⟩)
    rfl rfl rfl rfl rfl rfl rfl rfl

theorem posts : KeptByPosts (Local p s) := fun _ _ _ _ h =>
  h.write (fun _ _ => ⟨⟨rfl, rfl, rfl, rfl, rfl, rfl, rfl, rfl⟩, rfl⟩)
    rfl rfl rfl rfl rfl rfl rfl rfl

/-- A channel that the set names may be written, and one whose farewell completes may become
unassigned. -/
theorem setChannel {c : Fin 32} {x : Channel} (h : Local p s u)
    (hc : (∃ k ∈ s.circuits p, k.cfg.channel = c) ∨ (x = Channel.unassigned ∧ s.departs p c)) :
    Local p s (u.setChannel c x) where
  others := h.others
  channels := fun d hd => by
    by_cases hcd : c = d
    · subst hcd
      rcases hc with ⟨k, hk, hkc⟩ | ⟨rfl, hgone⟩
      · exact absurd hkc (hd k hk)
      · exact Or.inr ⟨rd_wr_self _ _ _, hgone⟩
    · rw [State.channel, State.setChannel_channels, rd_wr_of_ne _ _ hcd]
      exact h.channels d hd
  active := h.active
  now := h.now
  meters := h.meters
  ports := h.ports
  counter := h.counter
  image := h.image
  storing := h.storing

theorem circuits (h : Local p s u) : u.circuits p = s.circuits p := by
  rw [State.circuits, State.set, h.active]
  rfl

theorem source (p : Fin 4) (s : State) : KeptBySource p (fun k => k ∈ s.circuits p) (Local p s) where
  place := fun _ hk => circuit_portal hk
  scope := fun _ h _ hk => h.circuits ▸ hk
  zone := fun z x _ h => h.setZone z x
  channel := fun k _ _ hk h => h.setChannel (Or.inl ⟨k, hk, rfl⟩)
  enter := fun _ _ _ _ h => h.setLine _
  post := posts
  selector := fun x _ h => h.setSelector x
  arbiter := fun x _ _ h => h.setArbiter x
  eval := fun x _ h => h.setEval x
  base := fun _ _ h => h.setBase _

theorem trips (p : Fin 4) (s : State) : KeptByTrips p (fun k => k ∈ s.circuits p) (Local p s) where
  toKeptByLight := (source p s).toKeptByLight
  post := posts
  trip := fun x _ h => h.setTrip x

theorem replies (p : Fin 4) (s : State) : KeptByReplies p (fun k => k ∈ s.circuits p) (Local p s) where
  toKeptByLight := (source p s).toKeptByLight
  post := posts
  test := fun u h => (testLine_keeps (trips p s) (fun _ _ h => h.setLine _) u h).2
  tx := fun _ h => h.setLine _
  departed := fun _ _ h => h.setLine _
  station := fun _ _ _ _ h => h.setLine _

/-- The end of the transaction in progress on the portal's line. -/
theorem endTransaction {x y : Transaction} {act : Circuit → Station → State → State}
    (hact : ∀ k t u, k ∈ s.circuits p → rd (u.lampLine k.portal).stations k.addr = some t →
      Local p s u → Local p s (act k t u))
    (htx : (s.lampLine p).tx = some y) (hy : x.departing = y.departing) (h : Local p s u) :
    Local p s (endTransaction p x act u) :=
  endTransaction_keeps (replies p s) x act hact (fun c v hd ha hv => hv.setChannel (Or.inr ⟨rfl, by
    have hsame : v.assignment c = s.assignment c := by
      unfold State.assignment
      simp only [State.set, hv.active]
    exact ⟨hsame ▸ ha, y, htx, hy ▸ hd⟩⟩)) u h

end Local

/-- What an event of portal `p` leaves, as the statement says it. -/
def StaysAt (p : Fin 4) (s t : State) : Prop :=
  (∀ q, q ≠ p → SamePortal q s t ∧
    (t.lampLine q = s.lampLine q ∨ t.lampLine q = (beginTransactions s).lampLine q)) ∧
  (∀ c, (∀ k ∈ s.circuits p, k.cfg.channel ≠ c) → t.channel c = s.channel c ∨
    (t.channel c = { hand := none, level := none, target := none, farewell := none } ∧
      s.assignment c = none ∧ ∃ x, (s.lampLine p).tx = some x ∧ x.departing = some c)) ∧
  SameMeters s t ∧ t.ports = s.ports ∧ t.claimCounter = s.claimCounter ∧
  t.image = s.image ∧ t.storing = s.storing

theorem Local.staysAt {p : Fin 4} {s u : State} (h : Local p s u) : StaysAt p s u :=
  ⟨fun q hq => ⟨(h.others q hq).1, Or.inl (h.others q hq).2⟩, h.channels, h.meters, h.ports, h.counter,
    h.image, h.storing⟩

/-- The transactions that begin at the end of the event are those that the idle lines had work for. -/
theorem Local.staysAt_begun {p : Fin 4} {s u : State} (h : Local p s u) :
    StaysAt p s (beginTransactions u) := by
  obtain ⟨hothers, hchannels, hmeters, hports, hcounter, himage, hstoring⟩ := h.staysAt
  refine ⟨fun q hq => ⟨?_, Or.inr ?_⟩, ?_, ?_, ?_, ?_, ?_, ?_⟩
  · simpa [SamePortal, State.baseOf, State.eval, State.selector, State.arbiter, State.tripUnit, State.set,
      State.edit] using (hothers q hq).1
  · rw [beginTransactions_lampLine, beginTransactions_lampLine, (h.others q hq).2, h.now]
  · simpa [State.channel] using hchannels
  all_goals simpa [SameMeters]

theorem keeps_staysAt_next {p : Fin 4} {s u : State} (h : Local p s u) : Keeps (StaysAt p s) (.next u) :=
  keeps_next h.staysAt

theorem keeps_staysAt_done {p : Fin 4} {s u : State} (h : Local p s u) : Keeps (StaysAt p s) (done u) :=
  keeps_next h.staysAt_begun

section Events

variable (p : Fin 4) (s : State)

theorem holdTimer_stays : Keeps (StaysAt p s) (execHoldTimerExpiry p s) := by
  unfold execHoldTimerExpiry
  split
  · dsimp only
    split
    · exact keeps_staysAt_done (evaluate_keeps (Local.source p s) _ ((Local.refl p s).setEval _))
    · exact keeps_staysAt_next ((Local.refl p s).setEval _)
  · exact keeps_staysAt_next (Local.refl p s)

theorem mismatch_stays : Keeps (StaysAt p s) (execMismatch p s) := by
  unfold execMismatch
  split
  · split
    · exact keeps_staysAt_next
        (Local.setEval _ (postAll_keeps Local.posts _ (by simp [Event.kind]) _ (Local.refl p s)))
    · exact keeps_staysAt_next (Local.refl p s)
  · exact keeps_staysAt_next (Local.refl p s)

theorem dwell_stays : Keeps (StaysAt p s) (execDwellExpiry p s) := by
  have run (x : Selector) := (Local.refl p s).setSelector x
  unfold execDwellExpiry
  dsimp only
  split
  · split
    · exact keeps_staysAt_done (downward_keeps (Local.source p s).toKeptByStage _ (run _))
    · exact keeps_staysAt_next (run _)
  · exact keeps_staysAt_next (Local.refl p s)

theorem claimExpired_stays (n : Nat) : Keeps (StaysAt p s) (execClaimExpired p n s) :=
  keeps_staysAt_done (removeClaims_keeps (Local.source p s) _ _
    (fun _ _ h => Local.posts _ _ _ (by simp [Event.kind]) h) (fun _ h => h.setArbiter _) s
    (Local.refl p s))

theorem zoneTimers_stay (z : Fin 5) :
    Keeps (StaysAt p s) (execOverlapOnExpiry p z s) ∧ Keeps (StaysAt p s) (execOverlapOffExpiry p z s) ∧
      Keeps (StaysAt p s) (execConfirmTimeout p z s) := by
  have light := (Local.source p s).toKeptByLight
  have refl := Local.refl p s
  refine ⟨?_, ?_, ?_⟩
  · unfold execOverlapOnExpiry
    split
    · exact keeps_staysAt_next refl
    · split
      · exact keeps_staysAt_done (plan_keeps light _ _ _ refl)
      · exact keeps_staysAt_next refl
  · unfold execOverlapOffExpiry
    split
    · exact keeps_staysAt_next refl
    · split
      · exact keeps_staysAt_done (plan_keeps light _ _ _ refl)
      · exact keeps_staysAt_next refl
  · unfold execConfirmTimeout
    split
    · exact keeps_staysAt_next refl
    · split
      · exact keeps_staysAt_done (degrade_keeps light Local.posts _ _ _ refl)
      · exact keeps_staysAt_next refl

theorem fire_stays (high : Bool) :
    Keeps (StaysAt p s) (execFireInputChange p high s) ∧ Keeps (StaysAt p s) (execDebounceExpiry p s) := by
  constructor
  · unfold execFireInputChange
    split
    · exact keeps_staysAt_next (Local.refl p s)
    · exact keeps_staysAt_next (((Local.refl p s).setPins _).setTrip _)
  · unfold execDebounceExpiry
    dsimp only
    split
    · exact keeps_staysAt_done (recompute_keeps (Local.trips p s) _ (latchFire_keeps (Local.trips p s) _
        (postAll_keeps Local.posts _ (by simp [Event.kind]) _ ((Local.refl p s).setTrip _))))
    · exact keeps_staysAt_next (Local.refl p s)

theorem frameSent_stays : Keeps (StaysAt p s) (execFrameSent p s) := by
  unfold execFrameSent
  dsimp only
  split
  · exact keeps_staysAt_next (Local.refl p s)
  · split
    · exact keeps_staysAt_next ((Local.refl p s).setLine _)
    · exact keeps_staysAt_next (Local.refl p s)

/-- A byte heard in the reply window changes the phase of the transaction, and not its farewell. -/
theorem hear_local : Local p s (hear p s) ∧ ∀ x, ((hear p s).lampLine p).tx = some x →
    ∃ y, (s.lampLine p).tx = some y ∧ x.departing = y.departing := by
  unfold hear
  split
  · exact ⟨Local.refl p s, fun x hx => ⟨x, hx, rfl⟩⟩
  · next y hy =>
    split
    · exact ⟨Local.refl p s, fun x hx => ⟨x, hx, rfl⟩⟩
    · refine ⟨(Local.refl p s).setLine _, fun x hx => ⟨y, hy, ?_⟩⟩
      rw [State.lampLine, State.setLine_lines, rd_wr_self] at hx
      cases hx
      rfl

theorem statusReply_stays (burst : Burst) : Keeps (StaysAt p s) (execStatusReply p burst s) := by
  have heard : Local p s (if burst.bytes = [] then s else hear p s) ∧
      ∀ x, ((if burst.bytes = [] then s else hear p s).lampLine p).tx = some x →
        ∃ y, (s.lampLine p).tx = some y ∧ x.departing = y.departing := by
    split
    · exact ⟨Local.refl p s, fun x hx => ⟨x, hx, rfl⟩⟩
    · exact hear_local p s
  unfold execStatusReply
  dsimp only
  generalize (if burst.bytes = [] then s else hear p s) = u at heard
  obtain ⟨hu, hdep⟩ := heard
  split
  · exact keeps_staysAt_next hu
  · unfold takeReply
    split
    · exact keeps_staysAt_next hu
    · next x hx =>
      obtain ⟨y, hy, hxy⟩ := hdep x hx
      split
      · exact keeps_staysAt_next hu
      · split
        · exact keeps_staysAt_done (Local.endTransaction
            (fun k t v hk _ hv => replyActs_keeps (Local.replies p s) k hk t _ v hv) hy hxy hu)
        · exact keeps_staysAt_next hu

theorem replyWindow_stays : Keeps (StaysAt p s) (execReplyWindowExpiry p s) := by
  unfold execReplyWindowExpiry
  split
  · exact keeps_staysAt_next (Local.refl p s)
  · next x hx =>
    split
    · exact keeps_staysAt_next (Local.refl p s)
    · split
      · exact keeps_staysAt_done (Local.endTransaction
          (fun k t v hk ht hv => missActs_keeps (Local.replies p s) k hk t _ v ht hv) hx rfl
          (Local.refl p s))
      · exact keeps_staysAt_next (Local.refl p s)

end Events

/-- Settles O60, event by event. -/
theorem portalEventsStayAtTheirPortal : Obligations.PortalEventsStayAtTheirPortal := by
  intro p z n burst high s t i hi ht
  suffices h : Keeps (StaysAt p s) (exec i s) from h t ht
  simp only [List.mem_cons, List.not_mem_nil, or_false] at hi
  rcases hi with rfl | rfl | rfl | rfl | rfl | rfl | rfl | rfl | rfl | rfl | rfl | rfl
  · exact holdTimer_stays p s
  · exact mismatch_stays p s
  · exact dwell_stays p s
  · exact claimExpired_stays p s n
  · exact (zoneTimers_stay p s z).1
  · exact (zoneTimers_stay p s z).2.1
  · exact (zoneTimers_stay p s z).2.2
  · exact (fire_stays p s high).1
  · exact (fire_stays p s high).2
  · exact frameSent_stays p s
  · exact statusReply_stays p s burst
  · exact replyWindow_stays p s

end Sys2Proof.Machine
end

section
namespace Sys2Proof.Machine

/-! ### The phases of an adoption (R165) -/

section Phases

variable (p : Fin 4) (x : PendingSet) (s : State)

/-- The adoption up to the Meter Intake. -/
def adoptBound : State :=
  forEach allMeters (adoptMeter p (s.record p) x.set.record) (activate p x.set s)

/-- The adoption up to the source. -/
def adoptSourced : State :=
  adoptSource p (s.baseOf p) (s.record p) (s.bestEstimate p) (adoptBound p x s)

/-- The adoption up to its evaluation. -/
def adoptFormed : State := evaluateOnly p (adoptSourced p x s)

/-- The adoption up to the resolution of the effective stage. -/
def adoptResolved : State := resolveStage p (rewriteFreezes p (adoptSelection p (adoptFormed p x s)))

/-- The adoption up to the channels and the zones. -/
def adoptLighted : State :=
  forEach allZones (adoptZone p (s.set p)) (adoptChannels p (s.set p) (adoptResolved p x s))

/-- The adoption up to the Trip Unit. -/
def adoptTripped : State := recompute p (adoptTrip p (s.record p) (adoptLighted p x s))

theorem adopt_eq : adopt p x s = refreshShadow p (postAll (.adopted p x.seat) (adoptTripped p x s)) := rfl

end Phases

/-! ### What an adoption leaves to the other portals -/

/-- What no adoption writes once its set is activated: clock, sets, image, ports. -/
def State.fixed (s : State) :=
  ((s.now, s.nextRamp, s.resetCause, s.freeIndex, s.firePins, s.pending),
    (s.active, s.edits, s.image, s.storing, s.ports, s.claimCounter))

/-- The blocks of a portal, its line among them. -/
def State.blocks (s : State) (q : Fin 4) :=
  ((s.baseOf q, s.eval q, s.selector q, s.arbiter q), (rd s.zones q, s.tripUnit q, s.lampLine q))

section Blocks

variable {p q : Fin 4} (h : q ≠ p) (s : State)
include h

theorem blocks_setZone (z : Fin 5) (x : Option Zone) : (s.setZone p z x).blocks q = s.blocks q := by
  rw [State.blocks, State.setZone_zones, rd_wr_of_ne _ _ h.symm]
  rfl

theorem blocks_setBase (x : BaseState) : (s.setBase p x).blocks q = s.blocks q := by
  rw [State.blocks, State.baseOf, State.setBase_base, rd_wr_of_ne _ _ h.symm]
  rfl

theorem blocks_setEval (x : Evaluator) : (s.setEval p x).blocks q = s.blocks q := by
  rw [State.blocks, State.eval, State.setEval_evals, rd_wr_of_ne _ _ h.symm]
  rfl

theorem blocks_setSelector (x : Selector) : (s.setSelector p x).blocks q = s.blocks q := by
  rw [State.blocks, State.selector, State.setSelector_selectors, rd_wr_of_ne _ _ h.symm]
  rfl

theorem blocks_setArbiter (x : Arbiter) : (s.setArbiter p x).blocks q = s.blocks q := by
  rw [State.blocks, State.arbiter, State.setArbiter_arbiters, rd_wr_of_ne _ _ h.symm]
  rfl

theorem blocks_setTrip (x : TripUnit) : (s.setTrip p x).blocks q = s.blocks q := by
  rw [State.blocks, State.tripUnit, State.setTrip_trips, rd_wr_of_ne _ _ h.symm]
  rfl

theorem blocks_setLine (x : LampLine) : (s.setLine p x).blocks q = s.blocks q := by
  rw [State.blocks, State.lampLine, State.setLine_lines, rd_wr_of_ne _ _ h.symm]
  rfl

end Blocks

/-- From `s` to `u` the blocks of portal `p` alone have been written, and no set, port or clock. -/
def AdoptsAt (p : Fin 4) (s u : State) : Prop :=
  u.fixed = s.fixed ∧ ∀ q, q ≠ p → u.blocks q = s.blocks q

theorem AdoptsAt.trip {p : Fin 4} {s : State} (x : TripUnit) (u : State) (h : AdoptsAt p s u) :
    AdoptsAt p s (u.setTrip p x) :=
  ⟨h.1, fun q hq => (blocks_setTrip hq u x).trans (h.2 q hq)⟩

theorem AdoptsAt.line {p : Fin 4} {s : State} (x : LampLine) (u : State) (h : AdoptsAt p s u) :
    AdoptsAt p s (u.setLine p x) :=
  ⟨h.1, fun q hq => (blocks_setLine hq u x).trans (h.2 q hq)⟩

/-- Each write that an adoption is made of is to its portal, a meter, a channel or a queue. -/
theorem AdoptsAt.source (p : Fin 4) (s : State) : KeptBySource p (atPortal p) (AdoptsAt p s) where
  place := fun _ hk => hk
  scope := fun _ _ _ hk => circuit_portal hk
  zone := fun z x u h => ⟨h.1, fun q hq => (blocks_setZone hq u z x).trans (h.2 q hq)⟩
  channel := fun _ _ _ _ h => h
  enter := fun _ _ u _ h => AdoptsAt.line _ u h
  post := fun _ _ _ _ h => h
  selector := fun x u h => ⟨h.1, fun q hq => (blocks_setSelector hq u x).trans (h.2 q hq)⟩
  arbiter := fun x u _ h => ⟨h.1, fun q hq => (blocks_setArbiter hq u x).trans (h.2 q hq)⟩
  eval := fun x u h => ⟨h.1, fun q hq => (blocks_setEval hq u x).trans (h.2 q hq)⟩
  base := fun u _ h => ⟨h.1, fun q hq => (blocks_setBase hq u _).trans (h.2 q hq)⟩

theorem AdoptsAt.trips (p : Fin 4) (s : State) : KeptByTrips p (atPortal p) (AdoptsAt p s) where
  toKeptByLight := (AdoptsAt.source p s).toKeptByLight
  post := fun _ _ _ _ h => h
  trip := AdoptsAt.trip

theorem AdoptsAt.adoption (p : Fin 4) (s : State) : KeptByAdoption p (atPortal p) (AdoptsAt p s) where
  toKeptBySource := AdoptsAt.source p s
  meter := fun _ _ _ _ h => h
  freezes := fun u h => ⟨h.1, fun q hq => (blocks_setArbiter hq u _).trans (h.2 q hq)⟩
  test := fun u h => (testLine_keeps (AdoptsAt.trips p s) (fun _ u h => AdoptsAt.line _ u h) u h).1
  leave := fun _ _ u _ h => AdoptsAt.line _ u h
  join := fun _ _ u _ h => AdoptsAt.line _ u h

theorem adoptTripped_adoptsAt (p : Fin 4) (x : PendingSet) (s : State) :
    AdoptsAt p (activate p x.set s) (adoptTripped p x s) :=
  recompute_keeps (AdoptsAt.trips p _) _ (adoptTrip_keeps (AdoptsAt.trips p _) _ _
    (adoptLit_keeps (AdoptsAt.adoption p _) x.set s (fun _ hk => circuit_portal hk) ⟨rfl, fun _ _ => rfl⟩))

end Sys2Proof.Machine
end

section
namespace Sys2Proof.Machine

/-! ### What each half of an adoption leaves -/

/-- From `s` to `u` nothing was written but meters, evaluators, base states, selectors, arbiters and
queues. -/
def SameButDaylight (s u : State) : Prop :=
  { u with
    meters := s.meters, base := s.base, evals := s.evals, selectors := s.selectors
    arbiters := s.arbiters, queues := s.queues } = s

/-- From `s` to `u` nothing was written but edits, lamp lines and queues. -/
def SameButReport (s u : State) : Prop :=
  { u with edits := s.edits, lines := s.lines, queues := s.queues } = s

/-- From `s` to `u` nothing was written but zones, channels, lines, Trip Units and queues. -/
def SameButOutput (s u : State) : Prop :=
  { u with
    zones := s.zones, channels := s.channels, lines := s.lines, trips := s.trips
    queues := s.queues } = s

theorem SameButDaylight.trans {s t u : State} (h : SameButDaylight s t) (k : SameButDaylight t u) :
    SameButDaylight s u := by
  unfold SameButDaylight at h k
  rw [← k] at h
  exact h

theorem SameButOutput.trans {s t u : State} (h : SameButOutput s t) (k : SameButOutput t u) :
    SameButOutput s u := by
  unfold SameButOutput at h k
  rw [← k] at h
  exact h

namespace SameButDaylight

variable {s u : State} (h : SameButDaylight s u)
include h

theorem active : u.active = s.active := by
  have e := congrArg State.active h
  exact e

theorem zones : u.zones = s.zones := by
  have e := congrArg State.zones h
  exact e

theorem channels : u.channels = s.channels := by
  have e := congrArg State.channels h
  exact e

theorem lines : u.lines = s.lines := by
  have e := congrArg State.lines h
  exact e

theorem trips : u.trips = s.trips := by
  have e := congrArg State.trips h
  exact e

theorem now : u.now = s.now := by
  have e := congrArg State.now h
  exact e

theorem firePins : u.firePins = s.firePins := by
  have e := congrArg State.firePins h
  exact e

end SameButDaylight

namespace SameButOutput

variable {s u : State} (h : SameButOutput s u)
include h

theorem active : u.active = s.active := by
  have e := congrArg State.active h
  exact e

theorem meters : u.meters = s.meters := by
  have e := congrArg State.meters h
  exact e

theorem base : u.base = s.base := by
  have e := congrArg State.base h
  exact e

theorem evals : u.evals = s.evals := by
  have e := congrArg State.evals h
  exact e

theorem selectors : u.selectors = s.selectors := by
  have e := congrArg State.selectors h
  exact e

theorem arbiters : u.arbiters = s.arbiters := by
  have e := congrArg State.arbiters h
  exact e

theorem now : u.now = s.now := by
  have e := congrArg State.now h
  exact e

theorem firePins : u.firePins = s.firePins := by
  have e := congrArg State.firePins h
  exact e

end SameButOutput

namespace SameButReport

variable {s u : State} (h : SameButReport s u)
include h

theorem now : u.now = s.now := by
  have e := congrArg State.now h
  exact e

theorem nextRamp : u.nextRamp = s.nextRamp := by
  have e := congrArg State.nextRamp h
  exact e

theorem resetCause : u.resetCause = s.resetCause := by
  have e := congrArg State.resetCause h
  exact e

theorem freeIndex : u.freeIndex = s.freeIndex := by
  have e := congrArg State.freeIndex h
  exact e

theorem firePins : u.firePins = s.firePins := by
  have e := congrArg State.firePins h
  exact e

theorem pending : u.pending = s.pending := by
  have e := congrArg State.pending h
  exact e

theorem meters : u.meters = s.meters := by
  have e := congrArg State.meters h
  exact e

theorem active : u.active = s.active := by
  have e := congrArg State.active h
  exact e

theorem base : u.base = s.base := by
  have e := congrArg State.base h
  exact e

theorem evals : u.evals = s.evals := by
  have e := congrArg State.evals h
  exact e

theorem selectors : u.selectors = s.selectors := by
  have e := congrArg State.selectors h
  exact e

theorem arbiters : u.arbiters = s.arbiters := by
  have e := congrArg State.arbiters h
  exact e

theorem claimCounter : u.claimCounter = s.claimCounter := by
  have e := congrArg State.claimCounter h
  exact e

theorem zones : u.zones = s.zones := by
  have e := congrArg State.zones h
  exact e

theorem channels : u.channels = s.channels := by
  have e := congrArg State.channels h
  exact e

theorem trips : u.trips = s.trips := by
  have e := congrArg State.trips h
  exact e

theorem image : u.image = s.image := by
  have e := congrArg State.image h
  exact e

theorem storing : u.storing = s.storing := by
  have e := congrArg State.storing h
  exact e

theorem ports : u.ports = s.ports := by
  have e := congrArg State.ports h
  exact e

end SameButReport

theorem SameButEvaluation.daylight {s u : State} (h : SameButEvaluation s u) : SameButDaylight s u := by
  cases s
  cases u
  simp_all [SameButEvaluation, SameClock, SameSets, SameMeters, SameStage, SameLight, SameTrips,
    SameButDaylight]

/-- From `s` to `u` nothing was written but meters and queues. -/
def SameButMeters (s u : State) : Prop := { u with meters := s.meters, queues := s.queues } = s

theorem SameButMeters.trans {s t u : State} (h : SameButMeters s t) (k : SameButMeters t u) :
    SameButMeters s u := by
  unfold SameButMeters at h k
  rw [← k] at h
  exact h

namespace SameButMeters

variable {s u : State} (h : SameButMeters s u)
include h

theorem active : u.active = s.active := by
  have e := congrArg State.active h
  exact e

theorem base : u.base = s.base := by
  have e := congrArg State.base h
  exact e

theorem evals : u.evals = s.evals := by
  have e := congrArg State.evals h
  exact e

theorem selectors : u.selectors = s.selectors := by
  have e := congrArg State.selectors h
  exact e

theorem arbiters : u.arbiters = s.arbiters := by
  have e := congrArg State.arbiters h
  exact e

theorem now : u.now = s.now := by
  have e := congrArg State.now h
  exact e

end SameButMeters

theorem SameButMeters.daylight {s u : State} (h : SameButMeters s u) : SameButDaylight s u := by
  unfold SameButMeters at h
  have both := congrArg (fun v : State => { v with
    base := s.base, evals := s.evals, selectors := s.selectors, arbiters := s.arbiters }) h
  exact both

theorem changeMeter_rest (m : Fin 8) (p : Fin 4) (cause : MeterCause) (x : Meter) (s : State) :
    SameButMeters s (changeMeter m p cause x s) := by
  unfold changeMeter
  dsimp only
  split <;> rfl

theorem adoptMeter_rest (p : Fin 4) (old new : PortalRecord) (m : Fin 8) (s : State) :
    SameButMeters s (adoptMeter p old new m s) := by
  have kept : SameButMeters s (s.setMeter m ((s.meter m).rebind new.tStale)) := rfl
  unfold adoptMeter
  dsimp only
  split
  · split
    · split
      · exact kept.trans (changeMeter_rest m p _ _ _)
      · rfl
    · exact changeMeter_rest m p _ _ s
  · split
    · exact changeMeter_rest m p _ _ s
    · rfl

theorem adoptBound_rest (p : Fin 4) (x : PendingSet) (s : State) :
    SameButMeters (activate p x.set s) (adoptBound p x s) :=
  forEach_keeps (P := SameButMeters (activate p x.set s))
    (fun m _ u hu => hu.trans (adoptMeter_rest p _ _ m u)) _ rfl

/-- The source at an adoption is one write to the portal's evaluator. -/
theorem adoptSource_eq (p : Fin 4) (base : BaseState) (old : PortalRecord) (best : Nat) (s : State) :
    ∃ e, adoptSource p base old best s = s.setEval p e := by
  have written (e : Evaluator) (c : Prop) [Decidable c] :
      ∃ f, (if c then (s.setEval p e).setEval p e.lose else s.setEval p e) = s.setEval p f := by
    split
    · exact ⟨_, congrArg (fun v => { s with evals := v }) (wr_wr _ _ _ _)⟩
    · exact ⟨_, rfl⟩
  exact written _ _

theorem adoptSelection_daylight (p : Fin 4) (s : State) : SameButDaylight s (adoptSelection p s) := by
  unfold adoptSelection
  dsimp only
  split <;> rfl

/-- The selection leaves the evaluators and the base states. -/
theorem adoptSelection_source (p : Fin 4) (s : State) : SameSource s (adoptSelection p s) := by
  unfold adoptSelection
  dsimp only
  split <;> exact ⟨rfl, rfl⟩

/-- The stage of the one selection is the automatic stage, under the new top stage (R51, R58). -/
theorem adoptSelection_arbiter (p : Fin 4) (s : State) :
    ∃ i, (adoptSelection p s).arbiter p =
      { s.arbiter p with automatic := i, top := (s.set p).top } := by
  unfold adoptSelection
  dsimp only
  split <;> exact ⟨_, rd_wr_self _ _ _⟩

theorem resolveStage_source (p : Fin 4) (s : State) : SameSource s (resolveStage p s) := by
  unfold resolveStage
  dsimp only
  split <;> exact ⟨rfl, rfl⟩

/-- Resolved, the effective stage is the one of R73. -/
theorem resolveStage_arbiter (p : Fin 4) (s : State) :
    (resolveStage p s).arbiter p = { s.arbiter p with effective := (s.arbiter p).resolved } := by
  unfold resolveStage
  dsimp only
  split
  · next h => rw [h]
  · exact rd_wr_self _ _ _

theorem resolveStage_daylight (p : Fin 4) (s : State) : SameButDaylight s (resolveStage p s) := by
  unfold resolveStage
  dsimp only
  split <;> rfl

theorem adoptResolved_daylight (p : Fin 4) (x : PendingSet) (s : State) :
    SameButDaylight (activate p x.set s) (adoptResolved p x s) := by
  have bound : SameButDaylight (activate p x.set s) (adoptBound p x s) :=
    (adoptBound_rest p x s).daylight
  have sourced : SameButDaylight (adoptBound p x s) (adoptSourced p x s) := by
    obtain ⟨e, he⟩ := adoptSource_eq p (s.baseOf p) (s.record p) (s.bestEstimate p) (adoptBound p x s)
    rw [adoptSourced, he]
    rfl
  have formed : SameButDaylight (adoptSourced p x s) (adoptFormed p x s) :=
    (evaluateOnly_same p _).1.daylight
  have frozen (u : State) : SameButDaylight u (rewriteFreezes p u) := rfl
  exact bound.trans (sourced.trans (formed.trans ((adoptSelection_daylight p _).trans
    ((frozen _).trans (resolveStage_daylight p _)))))

section Read

variable (p : Fin 4) (x : PendingSet) (s : State)

theorem adoptSourced_rest : ∃ e, adoptSourced p x s = (adoptBound p x s).setEval p e :=
  adoptSource_eq p (s.baseOf p) (s.record p) (s.bestEstimate p) (adoptBound p x s)

theorem adoptSourced_active : (adoptSourced p x s).active = (activate p x.set s).active := by
  obtain ⟨e, he⟩ := adoptSourced_rest p x s
  rw [he]
  exact (adoptBound_rest p x s).active

theorem adoptSourced_arbiters : (adoptSourced p x s).arbiters = s.arbiters := by
  obtain ⟨e, he⟩ := adoptSourced_rest p x s
  rw [he]
  exact (adoptBound_rest p x s).arbiters

theorem adoptSourced_base : (adoptSourced p x s).base = (activate p x.set s).base := by
  obtain ⟨e, he⟩ := adoptSourced_rest p x s
  rw [he]
  exact (adoptBound_rest p x s).base

theorem activate_set : (activate p x.set s).set p = x.set := rd_wr_self _ _ _

theorem adoptFormed_set : (adoptFormed p x s).set p = x.set := by
  obtain ⟨⟨-, ⟨hactive, -⟩, -⟩, -⟩ := evaluateOnly_same p (adoptSourced p x s)
  rw [State.set, adoptFormed, hactive, adoptSourced_active]
  exact activate_set p x s

theorem adoptResolved_source : SameSource (adoptFormed p x s) (adoptResolved p x s) := by
  have frozen (u : State) : SameSource u (rewriteFreezes p u) := ⟨rfl, rfl⟩
  obtain ⟨h1, h2⟩ := adoptSelection_source p (adoptFormed p x s)
  obtain ⟨k1, k2⟩ := frozen (adoptSelection p (adoptFormed p x s))
  obtain ⟨l1, l2⟩ := resolveStage_source p (rewriteFreezes p (adoptSelection p (adoptFormed p x s)))
  exact ⟨l1.trans (k1.trans h1), l2.trans (k2.trans h2)⟩

/-- The Claim Arbiter after an adoption: its FREEZE copies rewritten under the new top stage, its
effective stage resolved anew (R73, R82). -/
theorem adoptResolved_arbiter :
    ∃ i, let a : Arbiter := { s.arbiter p with
          automatic := i, top := x.set.top
          claims := (s.arbiter p).claims.map fun c => c.rewrite x.set.top }
      (adoptResolved p x s).arbiter p = { a with effective := a.resolved } := by
  obtain ⟨i, hi⟩ := adoptSelection_arbiter p (adoptFormed p x s)
  have hset : (adoptFormed p x s).set p = x.set := adoptFormed_set p x s
  have harb : (adoptFormed p x s).arbiter p = s.arbiter p := by
    obtain ⟨⟨-, -, -, ⟨-, harb, -⟩, -⟩, -⟩ := evaluateOnly_same p (adoptSourced p x s)
    rw [State.arbiter, adoptFormed, harb]
    exact congrArg (rd · p) (adoptSourced_arbiters p x s)
  have frozen (u : State) : (rewriteFreezes p u).arbiter p =
      { u.arbiter p with claims := (u.arbiter p).claims.map fun c => c.rewrite (u.arbiter p).top } :=
    rd_wr_self _ _ _
  refine ⟨i, ?_⟩
  rw [adoptResolved, resolveStage_arbiter, frozen, hi, hset, harb]

end Read

/-! ### The output half -/

/-- Zones, levels and trips write outputs alone. -/
theorem SameButOutput.trips (p : Fin 4) (s : State) : KeptByTrips p (atPortal p) (SameButOutput s) where
  place := fun _ hk => hk
  scope := fun _ _ _ hk => circuit_portal hk
  zone := fun _ _ _ h => h
  channel := fun _ _ _ _ h => h
  enter := fun _ _ _ _ h => h
  post := fun _ _ _ _ h => h
  trip := fun _ _ h => h

theorem forEach_output {α : Type} {l : List α} {f : α → State → State}
    (h : ∀ a ∈ l, ∀ s, SameButOutput s (f a s)) (s : State) : SameButOutput s (forEach l f s) :=
  forEach_keeps (P := SameButOutput s) (fun a ha u hu => hu.trans (h a ha u)) s rfl

/-- From `s` to `u` nothing was written but channels, lines and queues. -/
def SameButChannels (s u : State) : Prop :=
  { u with channels := s.channels, lines := s.lines, queues := s.queues } = s

theorem SameButChannels.trans {s t u : State} (h : SameButChannels s t) (k : SameButChannels t u) :
    SameButChannels s u := by
  unfold SameButChannels at h k
  rw [← k] at h
  exact h

namespace SameButChannels

variable {s u : State} (h : SameButChannels s u)
include h

theorem output : SameButOutput s u := by
  have e := congrArg (fun v : State => { v with zones := s.zones, trips := s.trips }) h
  exact e

theorem trips : u.trips = s.trips := by
  have e := congrArg State.trips h
  exact e

theorem zones : u.zones = s.zones := by
  have e := congrArg State.zones h
  exact e

theorem now : u.now = s.now := by
  have e := congrArg State.now h
  exact e

end SameButChannels

theorem forEach_channels {α : Type} {l : List α} {f : α → State → State}
    (h : ∀ a s, SameButChannels s (f a s)) (s : State) : SameButChannels s (forEach l f s) :=
  forEach_keeps (P := SameButChannels s) (fun a _ u hu => hu.trans (h a u)) s rfl

theorem releaseForAdoption_rest (k : Circuit) (s : State) :
    SameButChannels s (releaseForAdoption k s) := by
  unfold releaseForAdoption
  dsimp only
  split <;> rfl

theorem command_same (k : Circuit) (level : Nat) (s : State) : SameButChannels s (command k level s) := by
  have h := congrArg (fun v : State => { v with queues := s.queues }) (command_rest k level s)
  exact h

theorem leavePass_rest (new : PortalSet) (k : Circuit) (s : State) :
    SameButChannels s (leavePass new k s) := by
  have leave (replaced : Bool) : SameButChannels s (leaveChannel k replaced s) :=
    (releaseForAdoption_rest k s).trans rfl
  unfold leavePass
  split
  · exact leave _
  · split
    · rfl
    · exact leave _

theorem joinPass_rest (old : PortalSet) (down : Bool) (k : Circuit) (s : State) :
    SameButChannels s (joinPass old down k s) := by
  have set (ch : Channel) : SameButChannels s (s.setChannel k.cfg.channel ch) := rfl
  have kept : SameButChannels s (keepChannel k s) := by
    unfold keepChannel
    dsimp only
    split
    · exact set _
    · split
      · exact set _
      · exact (set _).trans (command_same k _ _)
  unfold joinPass
  dsimp only
  split
  · rfl
  · split
    · rfl
    · split
      · exact kept
      · exact releaseForAdoption_rest k s

theorem settlePass_rest (k : Circuit) (s : State) : SameButChannels s (settlePass k s) := by
  have driven (u : State) : SameButChannels u (driveSwitched k u) := by
    unfold driveSwitched
    dsimp only
    split
    · exact command_same k _ u
    · rfl
  have given : SameButChannels s (giveTarget k 0 s) := rfl
  have targeted :
      SameButChannels s (if k.cfg.zone = none then driveSwitched k (giveTarget k 0 s) else s) := by
    split
    · exact given.trans (driven _)
    · rfl
  unfold settlePass
  dsimp only
  split
  · exact targeted.trans (command_same k _ _)
  · exact targeted

theorem testLineOnly_output (n : Fin 4) (s : State) : SameButOutput s (testLineOnly n s) := by
  have lined (l : LampLine) : SameButOutput s (s.setLine n l) := rfl
  have posted (e : Event) (u : State) (h : SameButOutput s u) : SameButOutput s (postAll e u) := h
  have set (x : TripUnit) (u : State) (h : SameButOutput s u) : SameButOutput s (u.setTrip n x) := h
  unfold testLineOnly
  dsimp only
  split
  · rfl
  · exact set _ _ (posted _ _ (lined _))

theorem adoptZone_output (p : Fin 4) (old : PortalSet) (z : Fin 5) (s : State) :
    SameButOutput s (adoptZone p old z s) := by
  have planned (zn : Zone) : SameButOutput s (plan p z zn s) :=
    plan_keeps (SameButOutput.trips p s).toKeptByLight z zn s rfl
  unfold adoptZone
  dsimp only
  split
  · split
    · split
      · rfl
      · exact planned _
    · split
      · rfl
      · exact planned _
  · rfl

theorem adoptChannels_output (p : Fin 4) (old : PortalSet) (s : State) :
    SameButOutput s (adoptChannels p old s) := by
  have left := forEach_channels (leavePass_rest (s.set p)) s (l := old.circuits p)
  have joined (u : State) := forEach_channels (joinPass_rest old (s.lampLine p).down) u
    (l := s.circuits p)
  have settled (u : State) := forEach_channels settlePass_rest u (l := s.circuits p)
  exact (left.trans ((joined _).trans (settled _))).output.trans (testLineOnly_output p _)

theorem adoptLighted_output (p : Fin 4) (x : PendingSet) (s : State) :
    SameButOutput (adoptResolved p x s) (adoptLighted p x s) :=
  (adoptChannels_output p _ _).trans (forEach_output (fun z _ => adoptZone_output p (s.set p) z) _)

theorem adoptTripped_output (p : Fin 4) (x : PendingSet) (s : State) :
    SameButOutput (adoptResolved p x s) (adoptTripped p x s) :=
  recompute_keeps (SameButOutput.trips p _) _
    (adoptTrip_keeps (SameButOutput.trips p _) _ _ (adoptLighted_output p x s))

end Sys2Proof.Machine
end

section
namespace Sys2Proof.Machine

/-! ### What a plan writes (R87, R88) -/

/-- Kept by what a plan of zone `z` writes: the zone, the targets of its DIMMED channels, and what the
switched target brings about. Its portal's circuits are in `C`. -/
structure KeptByPlan (p : Fin 4) (z : Fin 5) (C : Circuit → Prop) (P : State → Prop) : Prop where
  scope : ∀ s, P s → ∀ k ∈ s.circuits p, C k
  zone : ∀ x s, P s → P (s.setZone p z (some x))
  aim : ∀ k x s, C k → k.cfg.zone = some z → k.cfg.switched = false → P s →
    P (s.setChannel k.cfg.channel { s.channel k.cfg.channel with target := x })
  give : ∀ on s, P s → P (giveSwitched p z on s)

section Plan

variable {P : State → Prop} {p : Fin 4} {z : Fin 5} {C : Circuit → Prop} (h : KeptByPlan p z C P)
include h

theorem KeptByPlan.dimmed {s : State} (hs : P s) {k : Circuit} (hk : k ∈ s.dimmed p z) :
    C k ∧ k.cfg.zone = some z ∧ k.cfg.switched = false := by
  obtain ⟨hkc, hrest⟩ := mem_dimmed.mp hk
  exact ⟨h.scope s hs k hkc, hrest⟩

theorem KeptByPlan.steer (level : Nat) (s : State) (hs : P s) : P (steer p z level s) :=
  forEach_keeps (fun k hk u hu =>
    have ⟨hC, hz, hd⟩ := h.dimmed hs hk
    h.aim k _ u hC hz hd hu) _ hs

theorem KeptByPlan.holdDimmed (s : State) (hs : P s) : P (holdDimmed p z s) :=
  forEach_keeps (fun k hk u hu =>
    have ⟨hC, hz, hd⟩ := h.dimmed hs hk
    h.aim k _ u hC hz hd hu) _ hs

theorem KeptByPlan.testComplete (s : State) (hs : P s) : P (testComplete p z s) := by
  unfold Machine.testComplete
  split
  · exact hs
  · split
    · split
      · exact h.zone _ _ hs
      · exact h.zone _ _ hs
      · exact hs
    · exact hs

theorem KeptByPlan.enterRamping (zn : Zone) (level : Nat) (s : State) (hs : P s) :
    P (enterRamping p z zn level s) :=
  h.testComplete _ (h.zone _ _ (h.steer _ _ hs))

theorem KeptByPlan.enterBoostOffPrep (zn : Zone) (level : Nat) (s : State) (hs : P s) :
    P (enterBoostOffPrep p z zn level s) :=
  h.testComplete _ (h.zone _ _ (h.steer _ _ hs))

theorem KeptByPlan.enterBoostOnWait (zn : Zone) (s : State) (hs : P s) :
    P (enterBoostOnWait p z zn s) :=
  h.zone _ _ (h.holdDimmed _ hs)

/-- The rows of R88 write nothing else. -/
theorem KeptByPlan.plan (zn : Zone) (s : State) (hs : P s) : P (plan p z zn s) := by
  unfold Machine.plan
  dsimp only
  split
  · exact h.give _ _ (h.enterRamping _ _ _ hs)
  · split
    · split
      · exact h.give _ _ (h.enterBoostOnWait _ _ hs)
      · split
        · exact h.give _ _ (h.enterRamping _ _ _ hs)
        · split
          · exact h.give _ _ (h.enterRamping _ _ _ hs)
          · exact h.give _ _ (h.enterBoostOnWait _ _ hs)
    · split
      · exact h.give _ _ (h.enterBoostOffPrep _ _ _ hs)
      · exact h.give _ _ (h.enterRamping _ _ _ hs)

end Plan

/-- What the switched target brings about, by its two writes. -/
theorem giveSwitched_of_writes {P : State → Prop} {p : Fin 4} {z : Fin 5} {C : Circuit → Prop}
    (scope : ∀ s, P s → ∀ k ∈ s.circuits p, C k)
    (aim : ∀ k x s, C k → k.cfg.zone = some z → P s →
      P (s.setChannel k.cfg.channel { s.channel k.cfg.channel with target := x }))
    (drive : ∀ k level s, C k → k.cfg.zone = some z → k.cfg.switched = true →
      (s.channel k.cfg.channel).hand = none → s.tripped k.portal = false → P s →
      P (command k level s)) (on : Bool) (s : State) (hs : P s) : P (giveSwitched p z on s) := by
  unfold giveSwitched
  split
  · exact hs
  · next k hk =>
    obtain ⟨hkc, hz, hsw⟩ := switchedOf_spec hk
    have hC := scope s hs k hkc
    have driven (u : State) (hu : P u) : P (driveSwitched k u) := by
      unfold driveSwitched
      dsimp only
      split
      · next hd =>
        obtain ⟨-, hh, ht⟩ := hd
        exact drive k _ u hC hz hsw hh ht hu
      · exact hu
    exact driven _ (aim k _ s hC hz hs)

/-! ### The zone that a plan leaves -/

@[simp] theorem steer_zones (p : Fin 4) (z : Fin 5) (level : Nat) (s : State) :
    (steer p z level s).zones = s.zones :=
  forEach_keeps (P := fun u => u.zones = s.zones) (f := fun k u => giveTarget k level u)
    (fun _ _ _ h => h) _ rfl

@[simp] theorem holdDimmed_zones (p : Fin 4) (z : Fin 5) (s : State) :
    (holdDimmed p z s).zones = s.zones :=
  forEach_keeps (P := fun u => u.zones = s.zones) (f := holdTarget) (fun _ _ _ h => h) _ rfl

theorem command_zones (k : Circuit) (level : Nat) (s : State) : (command k level s).zones = s.zones := by
  have h := congrArg State.zones (command_rest k level s)
  exact h

@[simp] theorem giveSwitched_zones (p : Fin 4) (z : Fin 5) (on : Bool) (s : State) :
    (giveSwitched p z on s).zones = s.zones :=
  giveSwitched_of_writes (P := fun u => u.zones = s.zones) (C := fun _ => True)
    (fun _ _ _ _ => trivial) (fun _ _ _ _ _ h => h)
    (fun k level u _ _ _ _ _ h => (command_zones k level u).trans h) on s rfl

/-- A plan leaves the other zones. -/
theorem plan_zone_of_ne {p : Fin 4} {z y : Fin 5} (h : y ≠ z) (zn : Zone) (s : State) :
    (plan p z zn s).zone p y = s.zone p y := by
  refine KeptByPlan.plan (C := fun _ => True) (P := fun u => u.zone p y = s.zone p y)
    ⟨fun _ _ _ _ => trivial, fun x u hu => ?_, fun _ _ _ _ _ _ hu => hu, fun on u hu => ?_⟩ zn s rfl
  · simp [State.zone, h.symm] at hu ⊢
    exact hu
  · rw [State.zone, giveSwitched_zones]
    exact hu

/-- No channel is named twice in a list of circuits. -/
def Distinct (l : List Circuit) : Prop := ∀ k ∈ l, ∀ j ∈ l, j.cfg.channel = k.cfg.channel → j = k

/-- Whether every counted channel of a zone stands at a level (R90). -/
def State.reached (s : State) (p : Fin 4) (z : Fin 5) (level : Nat) : Bool :=
  (s.dimmed p z).all fun k =>
    (s.channel k.cfg.channel).hand.isSome || (s.channel k.cfg.channel).level == some (k.cfg.raised level)

theorem steer_active (p : Fin 4) (z : Fin 5) (level : Nat) (s : State) :
    (steer p z level s).active = s.active :=
  forEach_keeps (P := fun u => u.active = s.active) (f := fun k u => giveTarget k level u)
    (fun _ _ _ h => h) _ rfl

/-- Targets alone are steered. -/
theorem steer_channel (p : Fin 4) (z : Fin 5) (level : Nat) (s : State) (c : Fin 32) :
    ((steer p z level s).channel c).hand = (s.channel c).hand ∧
      ((steer p z level s).channel c).level = (s.channel c).level := by
  refine forEach_keeps
    (P := fun u => (u.channel c).hand = (s.channel c).hand ∧ (u.channel c).level = (s.channel c).level)
    (f := fun k u => giveTarget k level u) (fun k _ u hu => ?_) _ ⟨rfl, rfl⟩
  by_cases hc : k.cfg.channel = c
  · subst hc
    simpa [giveTarget, State.channel] using hu
  · rw [giveTarget_channel_of_ne hc]
    exact hu

/-- A zone that is steered to a level has completed its ramp exactly where its channels stand there. -/
theorem rampDone_steer {p : Fin 4} {z : Fin 5} {s : State} (hd : Distinct (s.circuits p))
    (level : Nat) :
    rampDone p z (steer p z level s) = s.reached p z level := by
  have hdim : (steer p z level s).dimmed p z = s.dimmed p z := by
    rw [State.dimmed, State.circuits, State.set, steer_active]
    rfl
  rw [rampDone, State.reached, hdim, Bool.eq_iff_iff, List.all_eq_true, List.all_eq_true]
  refine forall₂_congr fun k hk => ?_
  obtain ⟨hhand, hlevel⟩ := steer_channel p z level s k.cfg.channel
  have htarget : ((steer p z level s).channel k.cfg.channel).target = some (k.cfg.raised level) := by
    refine forEach_reaches
      (P := fun u => (u.channel k.cfg.channel).target = some (k.cfg.raised level))
      hk (fun u => by simp [giveTarget, State.channel]) (fun j hj u hu => ?_) s
    by_cases hc : j.cfg.channel = k.cfg.channel
    · obtain rfl := hd k (mem_of_dimmed hk) j (mem_of_dimmed hj) hc
      simp [giveTarget, State.channel]
    · rw [giveTarget_channel_of_ne hc]
      exact hu
  rw [atTarget, hhand, hlevel, htarget]

/-- What a plan makes of a zone (R88), where `reached` says which levels its channels stand at. -/
def Zone.planned (zn : Zone) (b : Nat) (reached : Nat → Bool) (now overlapEnd : Nat) : Zone :=
  let ramp (zn : Zone) (level : Nat) : Zone :=
    { zn with state := if reached level then .steady else .ramping, overlap := none }
  let wait (zn : Zone) : Zone :=
    { zn with state := .boostOnWait, overlap := none, confirm := some (now + confirmMs) }
  if b = 0 then
    ramp { zn with switched := false, confirmed := false, confirm := none, degraded := false }
      (levelWithout b zn.working)
  else if needsBoost b zn.working then
    if zn.switched = false then wait { zn with switched := true, confirmed := false }
    else if zn.confirmed then ramp zn (levelWith b zn.working)
    else if zn.degraded then ramp zn 1000
    else wait zn
  else if zn.switched then
    if reached (levelWithout b zn.working) then
      { zn with state := .overlapOff, overlap := some overlapEnd }
    else { zn with state := .boostOffPrep, overlap := none }
  else ramp zn (levelWithout b zn.working)

/-- The completion test, where the zone is known. -/
theorem testComplete_zone {p : Fin 4} {z : Fin 5} {s : State} {zn : Zone} (h : s.zone p z = some zn) :
    (testComplete p z s).zone p z = some (
      if rampDone p z s then
        match zn.state with
        | .ramping => { zn with state := .steady }
        | .boostOffPrep => zn.overlapOff (overlapEnd p s)
        | _ => zn
      else zn) := by
  unfold testComplete
  rw [h]
  dsimp only
  split
  · split <;> simp_all [State.zone]
  · exact h

/-- A planned zone is present. -/
theorem plan_zone_isSome (p : Fin 4) (z : Fin 5) (zn : Zone) (s : State) :
    ((plan p z zn s).zone p z).isSome = true := by
  have given (on : Bool) (u : State) (hu : (u.zone p z).isSome = true) :
      ((giveSwitched p z on u).zone p z).isSome = true := by
    rw [State.zone, giveSwitched_zones]
    exact hu
  have set (x : Zone) (u : State) : (u.setZone p z (some x)).zone p z = some x := by simp [State.zone]
  have tested (x : Zone) (u : State) :
      ((testComplete p z (u.setZone p z (some x))).zone p z).isSome = true := by
    rw [testComplete_zone (set x u)]
    rfl
  have waited (x : Zone) (u : State) : ((u.setZone p z (some x)).zone p z).isSome = true := by
    rw [set x u]
    rfl
  unfold plan
  dsimp only
  split
  · exact given _ _ (tested _ _)
  · split
    · split
      · exact given _ _ (waited _ _)
      · split
        · exact given _ _ (tested _ _)
        · split
          · exact given _ _ (tested _ _)
          · exact given _ _ (waited _ _)
    · split
      · exact given _ _ (tested _ _)
      · exact given _ _ (tested _ _)

section Zone

variable {p : Fin 4} {z : Fin 5} {s : State} (hd : Distinct (s.circuits p)) (zn : Zone)

include hd in
/-- A steered zone is tested at once. -/
theorem testComplete_steered (level : Nat) :
    (testComplete p z ((steer p z level s).setZone p z (some zn))).zone p z = some (
      if s.reached p z level then
        match zn.state with
        | .ramping => { zn with state := .steady }
        | .boostOffPrep => zn.overlapOff (overlapEnd p s)
        | _ => zn
      else zn) := by
  have hz : ((steer p z level s).setZone p z (some zn)).zone p z = some zn := by simp [State.zone]
  have hr : rampDone p z ((steer p z level s).setZone p z (some zn)) = s.reached p z level :=
    rampDone_steer hd level
  have he : overlapEnd p ((steer p z level s).setZone p z (some zn)) = overlapEnd p s := by
    have hn : (steer p z level s).now = s.now :=
      forEach_keeps (P := fun u => u.now = s.now) (f := fun k u => giveTarget k level u)
        (fun _ _ _ h => h) _ rfl
    rw [overlapEnd, overlapEnd, State.setZone_now, hn, State.record, State.record, State.setZone_active,
      steer_active]
  rw [testComplete_zone hz, hr, he]

include hd in
/-- The rows of R88, read at the zone. -/
theorem plan_zone :
    (plan p z zn s).zone p z =
      some (zn.planned (s.boostShare p z) (s.reached p z) s.now (overlapEnd p s)) := by
  have given (on : Bool) (u : State) : (giveSwitched p z on u).zone p z = u.zone p z := by
    rw [State.zone, giveSwitched_zones]
  have waits (x : Zone) : (enterBoostOnWait p z x s).zone p z =
      some { x with state := .boostOnWait, overlap := none, confirm := some (s.now + confirmMs) } := by
    simp [enterBoostOnWait, State.zone]
  have ramps (x : Zone) (level : Nat) : (enterRamping p z x level s).zone p z = some
      { x with state := if s.reached p z level then .steady else .ramping, overlap := none } := by
    rw [enterRamping, testComplete_steered hd]
    cases s.reached p z level <;> rfl
  have preps (x : Zone) (level : Nat) : (enterBoostOffPrep p z x level s).zone p z = some
      (if s.reached p z level then { x with state := .overlapOff, overlap := some (overlapEnd p s) }
        else { x with state := .boostOffPrep, overlap := none }) := by
    rw [enterBoostOffPrep, testComplete_steered hd]
    cases s.reached p z level <;> rfl
  unfold plan Zone.planned
  dsimp only
  split
  · rw [given, ramps]
  · split
    · split
      · rw [given, waits]
      · split
        · rw [given, ramps]
        · split
          · rw [given, ramps]
          · rw [given, waits]
    · split
      · rw [given, preps]
      · rw [given, ramps]

end Zone

end Sys2Proof.Machine
end

section
namespace Sys2Proof.Machine

/-! ### The recomputation and the lighting (R110, R116, R120) -/

/-- A repetition over distinct elements: what one of them brings about where the others have kept what it
needs, and keep what it gives. -/
theorem forEach_once {α : Type} {P Q : State → Prop} {l : List α} {f : α → State → State} {a : α}
    (hn : l.Nodup) (ha : a ∈ l) (hat : ∀ s, Q s → P (f a s))
    (hbefore : ∀ b ∈ l, b ≠ a → ∀ s, Q s → Q (f b s))
    (hafter : ∀ b ∈ l, b ≠ a → ∀ s, P s → P (f b s)) (s : State) (hs : Q s) : P (forEach l f s) := by
  induction l generalizing s with
  | nil => cases ha
  | cons b rest ih =>
    obtain ⟨hb, hrest⟩ := List.nodup_cons.mp hn
    rcases List.mem_cons.mp ha with rfl | ha
    · exact forEach_keeps (fun c hc => hafter c (List.mem_cons_of_mem _ hc)
        fun hca => hb (hca ▸ hc)) _ (hat s hs)
    · exact ih hrest ha (fun c hc => hbefore c (List.mem_cons_of_mem b hc))
        (fun c hc => hafter c (List.mem_cons_of_mem b hc)) _
        (hbefore b List.mem_cons_self (fun hba => hb (hba ▸ ha)) s hs)

/-- The zones, the channels and the lamp lines. -/
def State.lighting (s : State) : Vector (Vector (Option Zone) 5) 4 × Vector Channel 32 × Vector LampLine 4 :=
  (s.zones, s.channels, s.lines)

/-- From `s` to `u` nothing was written but Trip Units and queues. -/
def SameButTrips (s u : State) : Prop := { u with trips := s.trips, queues := s.queues } = s

/-- The sources of portal `p` have joined one by one from `s` to `u`: the overlay stands as it was and no
lighting changed, or the first source that joined has set it. -/
def Joining (p : Fin 4) (new : TripSet) (s u : State) : Prop :=
  (u.tripped p = s.tripped p ∧ SameButTrips s u) ∨
    (s.tripped p = false ∧ u.tripped p = true ∧ new ≠ TripSet.empty ∧
      ∃ t, SameButTrips s t ∧ u.lighting = (enterTrip p t).lighting)

theorem has_empty (x : TripSource) : TripSet.empty.has x = false := by cases x <;> rfl

theorem joinIfNew_joining {p : Fin 4} {new : TripSet} (kept : TripSet) (x : TripSource) {s u : State}
    (h : Joining p new s u) : Joining p new s (joinIfNew p new kept x u) := by
  have posted (e : Event) (v : State) (hv : Joining p new s v) : Joining p new s (postAll e v) := hv
  have sources (y : TripSet) (v : State) (hv : Joining p new s v) :
      Joining p new s (v.setTrip p { v.tripUnit p with sources := y }) := by
    have hsame : (v.setTrip p { v.tripUnit p with sources := y }).tripped p = v.tripped p := by
      simp [State.tripped, State.tripUnit]
    rcases hv with ⟨ho, hv⟩ | ⟨hs, ho, hne, t, ht, hl⟩
    · exact Or.inl ⟨hsame.trans ho, hv⟩
    · exact Or.inr ⟨hs, hsame.trans ho, hne, t, ht, hl⟩
  unfold joinIfNew
  split
  · next hx =>
    have hne : new ≠ TripSet.empty := by
      rintro rfl
      simp [has_empty] at hx
    unfold joinSource
    dsimp only
    refine posted _ _ ?_
    have joined := sources ((u.tripUnit p).sources.join x) u h
    split
    · exact joined
    · next ho =>
      rcases h with ⟨hsame, hu⟩ | ⟨-, htrue, -⟩
      · refine Or.inr ⟨hsame ▸ Bool.eq_false_iff.mpr ho, ?_, hne, _, ?_, rfl⟩
        · rw [State.tripped, State.tripUnit, enterTrip_trips, rd_wr_self]
        · exact hu
      · exact absurd htrue ho
  · exact h

/-- What the recomputation does to the lighting, by the overlay before and after it. -/
theorem recompute_lighting (p : Fin 4) (s : State) :
    ((recompute p s).tripped p = s.tripped p ∧ (recompute p s).lighting = s.lighting) ∨
      ∃ t, SameButTrips s t ∧
        ((s.tripped p = false ∧ (recompute p s).tripped p = true ∧
            (recompute p s).lighting = (enterTrip p t).lighting) ∨
          (s.tripped p = true ∧ (recompute p s).tripped p = false ∧
            (recompute p s).lighting = (exitTrip p t).lighting)) := by
  have lighting (u : State) (hu : SameButTrips s u) : u.lighting = s.lighting := by
    have h := congrArg State.lighting hu
    exact h
  have ends (u : State) (hu : Joining p (s.sourcesOf p) s u) (v : State)
      (hv : v = if s.sourcesOf p = TripSet.empty ∧ (u.tripUnit p).overlay = true then exitTrip p u else u) :
      (v.tripped p = s.tripped p ∧ v.lighting = s.lighting) ∨ ∃ t, SameButTrips s t ∧
        ((s.tripped p = false ∧ v.tripped p = true ∧ v.lighting = (enterTrip p t).lighting) ∨
          (s.tripped p = true ∧ v.tripped p = false ∧ v.lighting = (exitTrip p t).lighting)) := by
    subst hv
    rcases hu with ⟨ho, hu⟩ | ⟨hs, ho, hne, t, ht, hl⟩
    · split
      · next hexit =>
        refine Or.inr ⟨u, hu, Or.inr ⟨ho.symm.trans hexit.2, ?_, rfl⟩⟩
        rw [State.tripped, State.tripUnit, exitTrip_trips, rd_wr_self]
      · exact Or.inl ⟨ho, lighting u hu⟩
    · rw [if_neg fun h => hne h.1]
      exact Or.inr ⟨t, ht, Or.inl ⟨hs, ho, hl⟩⟩
  refine ends _ ?_ (recompute p s) rfl
  refine joinIfNew_joining _ _ (joinIfNew_joining _ _ (joinIfNew_joining _ _ (Or.inl ⟨?_, rfl⟩)))
  simp [State.tripped, State.tripUnit]

/-! ### The zones under trips (R97) -/

/-- A zone that enters HELD. -/
def Zone.held (zn : Zone) : Zone :=
  { zn.takeLatest with
    state := .held, overlap := none, confirm := none, confirmed := false, degraded := false }

theorem enterHeld_zones (p : Fin 4) (z : Fin 5) (s : State) :
    (enterHeld p z s).zones = (s.setZone p z ((s.zone p z).map Zone.held)).zones := by
  unfold enterHeld
  split
  · next h => rw [h, Option.map_none, ← h, State.setZone_zones, State.zone, wr_rd_self, wr_rd_self]
  · next h => rw [h]; rfl

theorem allZones_nodup : allZones.Nodup := by decide

/-- Entering TRIPPED holds each present zone. -/
theorem enterTrip_zone (p : Fin 4) (z : Fin 5) (s : State) :
    (enterTrip p s).zone p z = (s.zone p z).map Zone.held := by
  have read (y : Fin 5) (u : State) : (enterHeld p y u).zone p z =
      if y = z then (u.zone p z).map Zone.held else u.zone p z := by
    rw [State.zone, enterHeld_zones]
    split
    · next h => simp [h, State.zone]
    · next h => simp [h, State.zone]
  have levels (u : State) : (commandFailLevels p u).zones = u.zones :=
    forEach_keeps (P := fun v => v.zones = u.zones) (f := fun k v => command k k.cfg.failLevel v)
      (fun k _ v hv => (command_zones k _ v).trans hv) _ rfl
  refine forEach_once (P := fun u => u.zone p z = (s.zone p z).map Zone.held)
    (Q := fun u => u.zone p z = s.zone p z) (f := enterHeld p) allZones_nodup (mem_allZones z)
    (fun u hu => ?_) (fun y _ hy u hu => ?_) (fun y _ hy u hu => ?_) _ ?_
  · rw [read, if_pos rfl, hu]
  · rw [read, if_neg hy, hu]
  · rw [read, if_neg hy, hu]
  · rw [State.zone, levels]
    rfl

/-- A zone whose portal leaves TRIPPED plans from its switched channel's fail level. -/
def PortalSet.failOn (x : PortalSet) (p : Fin 4) (z : Fin 5) : Bool :=
  (x.switchedOf p z).any fun k => k.cfg.failLevel != 0

theorem leaveHeld_of_none {p : Fin 4} {z : Fin 5} {s : State} (h : s.zone p z = none) :
    leaveHeld p z s = s := by
  unfold leaveHeld
  rw [h]

theorem leaveHeld_of_some {p : Fin 4} {z : Fin 5} {s : State} {zn : Zone} (h : s.zone p z = some zn) :
    leaveHeld p z s = plan p z { zn with switched := (s.set p).failOn p z } s := by
  unfold leaveHeld PortalSet.failOn
  rw [h]
  cases (s.set p).switchedOf p z <;> rfl

theorem leaveHeld_zone_of_ne {p : Fin 4} {z y : Fin 5} (h : y ≠ z) (s : State) :
    (leaveHeld p z s).zone p y = s.zone p y := by
  cases hz : s.zone p z with
  | none => rw [leaveHeld_of_none hz]
  | some zn =>
    rw [leaveHeld_of_some hz]
    exact plan_zone_of_ne h _ _

theorem leaveHeld_isSome (p : Fin 4) (z y : Fin 5) (s : State) :
    ((leaveHeld p z s).zone p y).isSome = (s.zone p y).isSome := by
  by_cases h : y = z
  · subst h
    cases hz : s.zone p y with
    | none => rw [leaveHeld_of_none hz, hz]
    | some zn =>
      rw [leaveHeld_of_some hz, plan_zone_isSome]
      rfl
  · rw [leaveHeld_zone_of_ne h]

theorem leaveFailLevel_zones (k : Circuit) (s : State) : (leaveFailLevel k s).zones = s.zones := by
  unfold leaveFailLevel
  split
  · exact command_zones _ _ _
  · unfold driveSwitched
    dsimp only
    split
    · exact command_zones _ _ _
    · rfl

/-- Leaving TRIPPED, a portal's zones are those that its planning leaves. -/
theorem exitTrip_zones (p : Fin 4) (s : State) :
    (exitTrip p s).zones = (forEach allZones (leaveHeld p)
      (postAll (.tripCleared p) (s.setTrip p { s.tripUnit p with overlay := false }))).zones :=
  forEach_keeps (P := fun u => u.zones = _) (f := leaveFailLevel)
    (fun k _ u hu => (leaveFailLevel_zones k u).trans hu) _ rfl

/-- The recomputation keeps which zones are present. -/
theorem recompute_isSome (p : Fin 4) (z : Fin 5) (s : State) :
    ((recompute p s).zone p z).isSome = (s.zone p z).isSome := by
  have zones (u v : State) (h : u.lighting = v.lighting) : u.zone p z = v.zone p z := by
    have hz : u.zones = v.zones := congrArg Prod.fst h
    rw [State.zone, hz]
  rcases recompute_lighting p s with ⟨-, h⟩ | ⟨t, ht, ⟨-, -, h⟩ | ⟨-, -, h⟩⟩
  · rw [zones _ _ h]
  · have hts : t.zone p z = s.zone p z := by
      have h := congrArg (fun v => v.zone p z) ht
      exact h
    rw [zones _ _ h, enterTrip_zone, hts, Option.isSome_map]
  · have hts : t.zone p z = s.zone p z := by
      have h := congrArg (fun v => v.zone p z) ht
      exact h
    rw [zones _ _ h, State.zone, exitTrip_zones]
    refine forEach_keeps (P := fun u => (u.zone p z).isSome = (s.zone p z).isSome) (f := leaveHeld p)
      (fun y _ u hu => (leaveHeld_isSome p y z u).trans hu) _ ?_
    exact congrArg Option.isSome hts

end Sys2Proof.Machine
end

section
namespace Sys2Proof.Machine

/-! ### What an adoption ends with (O23) -/

theorem postAll_queue (e : Event) (s : State) (seat : Seat) :
    (postAll e s).queue seat = (s.queue seat).place e s.uptime := by
  cases seat <;> simp [postAll, postTo, State.queue, State.setQueue, seatIx, State.uptime, State.tenths]

section Report

variable (p : Fin 4) (x : PendingSet) (s : State)

/-- The report of an adoption writes the edit and the queues. -/
theorem adopt_report : SameButReport (adoptTripped p x s) (adopt p x s) := by
  have refreshed (u v : State) (h : SameButReport u v) : SameButReport u (refreshShadow p v) := by
    unfold refreshShadow
    dsimp only
    split <;> exact h
  have posted (u : State) (e : Event) : SameButReport u (postAll e u) := rfl
  rw [adopt_eq]
  exact refreshed _ _ (posted _ _)

/-- The transactions that begin after it write the lamp lines. -/
theorem adopted_report : SameButReport (adoptTripped p x s) (beginTransactions (adopt p x s)) := by
  have begun (u v : State) (h : SameButReport u v) : SameButReport u (beginTransactions v) := by
    have hv := beginTransactions_rest v
    unfold SameButReport at h ⊢
    rw [← hv] at h
    exact h
  exact begun _ _ (adopt_report p x s)

theorem adopted_clock : SameClock s (adoptTripped p x s) := by
  have h := (adoptTripped_adoptsAt p x s).1
  simp only [State.fixed, Prod.mk.injEq] at h
  exact h.1

/-- ADOPTED stands last in each queue that takes it. -/
theorem adopt_queue (seat : Seat) :
    (adopt p x s).queue seat =
      ((adoptTripped p x s).queue seat).place (.adopted p x.seat) s.uptime := by
  have hq (u : State) : (refreshShadow p u).queues = u.queues := by
    unfold refreshShadow
    dsimp only
    split <;> rfl
  rw [State.queue, adopt_eq, hq, ← uptime_of_now (adopted_clock p x s).1]
  exact postAll_queue _ _ seat

theorem adopt_edit :
    (adopt p x s).edit p =
      { holder := (s.edit p).holder, pendingSet := none
        shadow := (s.edit p).shadow.map fun y =>
          if y.locked then { set := x.set.copied, locked := false } else y } := by
  have hedit : (adoptTripped p x s).edit p = { s.edit p with pendingSet := none } := by
    have h := congrArg Prod.snd (adoptTripped_adoptsAt p x s).1
    simp only [State.fixed, Prod.mk.injEq] at h
    rw [State.edit, h.2.1]
    simp [activate, State.edit]
  have hset : (adoptTripped p x s).set p = x.set := by
    have h := congrArg Prod.snd (adoptTripped_adoptsAt p x s).1
    simp only [State.fixed, Prod.mk.injEq] at h
    rw [State.set, h.1]
    exact activate_set p x s
  have refreshed (u : State) : (refreshShadow p u).edit p =
      { u.edit p with shadow := (u.edit p).shadow.map fun y =>
          if y.locked then { set := (u.set p).copied, locked := false } else y } := by
    unfold refreshShadow
    dsimp only
    cases hs : (u.edit p).shadow with
    | none =>
      rw [Option.any_none, if_neg Bool.false_ne_true, ← hs]
      cases hu : u.edit p
      rw [hu] at hs
      subst hs
      rfl
    | some y =>
      cases hl : y.locked
      · simp only [Option.any_some, hl, Bool.false_eq_true, if_false, Option.map_some]
        rw [← hs]
      · simp only [Option.any_some, hl, if_true, Option.map_some]
        exact rd_wr_self _ _ _
  have told (u : State) : (postAll (.adopted p x.seat) u).edit p = u.edit p ∧
      (postAll (.adopted p x.seat) u).set p = u.set p := ⟨rfl, rfl⟩
  obtain ⟨hte, hts⟩ := told (adoptTripped p x s)
  rw [adopt_eq, refreshed, hte, hts, hedit, hset]

theorem adoptResolved_sets : (adoptResolved p x s).set p = x.set := by
  rw [State.set, (adoptResolved_daylight p x s).active]
  exact activate_set p x s

theorem adopted_set : (adoptTripped p x s).set p = x.set := by
  rw [State.set, (adoptTripped_output p x s).active]
  exact adoptResolved_sets p x s

end Report

/-! ### The base state and the source of an adopted set (R2) -/

section Base

variable (p : Fin 4) (x : PendingSet) (s : State)

theorem adoptTripped_source :
    (adoptTripped p x s).eval p = (adoptFormed p x s).eval p ∧
      (adoptTripped p x s).baseOf p = (startRunning p (adoptSourced p x s)).baseOf p := by
  obtain ⟨he, hb⟩ := adoptResolved_source p x s
  have hout := adoptTripped_output p x s
  refine ⟨?_, ?_⟩
  · rw [State.eval, hout.evals, he]
  · rw [State.baseOf, hout.base, hb, adoptFormed, (evaluateOnly_same p _).2]

/-- INJECT claims are left by the rewriting of FREEZE claims (R82). -/
theorem topInject_rewrite (a : Arbiter) (top : Nat) :
    ({ a with claims := a.claims.map fun c => c.rewrite top } : Arbiter).topInject = a.topInject := by
  have kind (c : Claim) : (c.rewrite top).kind = c.kind := by
    unfold Claim.rewrite
    split <;> rfl
  have inject (c : Claim) (h : (c.kind == .inject) = true) : c.rewrite top = c := by
    unfold Claim.rewrite
    rw [if_neg]
    intro hf
    rw [hf] at h
    cases h
  unfold Arbiter.topInject
  dsimp only
  rw [← List.map_reverse, List.find?_map]
  simp only [Function.comp_def, kind]
  cases h : a.claims.reverse.find? fun c => c.kind == .inject with
  | none => rfl
  | some c => exact congrArg some (inject c (by simpa using List.find?_some h))

theorem adoptResolved_topInject :
    ((adoptResolved p x s).arbiter p).topInject = (s.arbiter p).topInject := by
  obtain ⟨i, hi⟩ := adoptResolved_arbiter p x s
  dsimp only at hi
  rw [hi]
  exact topInject_rewrite (s.arbiter p) x.set.top

theorem adoptTripped_statusOf :
    (adoptTripped p x s).statusOf p = (adoptSourced p x s).statusOf p := by
  have hinj : ((adoptTripped p x s).arbiter p).topInject = (s.arbiter p).topInject := by
    rw [State.arbiter, (adoptTripped_output p x s).arbiters]
    exact adoptResolved_topInject p x s
  obtain ⟨since, reported, hform⟩ :=
    testMismatch_eq ((adoptSourced p x s).formed p) ((adoptSourced p x s).pair p) (adoptSourced p x s).now
  have hsource : ((adoptTripped p x s).eval p).source =
      ((startRunning p (adoptSourced p x s)).eval p).source := by
    rw [(adoptTripped_source p x s).1, adoptFormed, evaluateOnly_eval, hform, State.formed]
  have harb : ((startRunning p (adoptSourced p x s)).arbiter p) = s.arbiter p := by
    obtain ⟨⟨-, -, -, ⟨-, harb, -⟩, -⟩, -⟩ := startRunning_same p (adoptSourced p x s)
    rw [State.arbiter, harb, adoptSourced_arbiters]
  rw [← startRunning_statusOf p (adoptSourced p x s), State.statusOf, State.statusOf, hinj, harb, hsource]

/-- The base state of an adopted set. -/
theorem adoptTripped_baseOf :
    (adoptTripped p x s).baseOf p =
      if (s.baseOf p).adopt x.set.record.enabled = .starting ∧
          ((adoptTripped p x s).statusOf p).starts = true then .running
      else (s.baseOf p).adopt x.set.record.enabled := by
  have hbase : (adoptSourced p x s).baseOf p = (s.baseOf p).adopt x.set.record.enabled := by
    rw [State.baseOf, adoptSourced_base]
    exact rd_wr_self _ _ _
  rw [(adoptTripped_source p x s).2, adoptTripped_statusOf, ← hbase]
  split
  · next h =>
    rw [startRunning_of_starts h]
    simp [State.baseOf]
  · next h => rw [startRunning_of_not h]

end Base

/-! ### The zones and the meters of an adopted set -/

/-- A zone that a set takes in is present exactly where its record says so (R5). -/
theorem adoptZone_isSome (p : Fin 4) (old : PortalSet) (z : Fin 5) (s : State) :
    ((adoptZone p old z s).zone p z).isSome = rd (s.record p).zones z := by
  have set (y : Option Zone) (b : Bool) (h : y.isSome = b) : ((s.setZone p z y).zone p z).isSome = b := by
    simpa [State.zone] using h
  unfold adoptZone
  dsimp only
  split
  · next hz =>
    rw [hz]
    split
    · split
      · exact set _ _ rfl
      · exact plan_zone_isSome _ _ _ _
    · split
      · exact set _ _ rfl
      · exact plan_zone_isSome _ _ _ _
  · next hz => exact set _ _ (Bool.eq_false_iff.mpr hz).symm

theorem adoptZone_zone_of_ne {p : Fin 4} {z y : Fin 5} (h : y ≠ z) (old : PortalSet) (s : State) :
    (adoptZone p old z s).zone p y = s.zone p y := by
  have set (v : Option Zone) : (s.setZone p z v).zone p y = s.zone p y := by
    simp [State.zone, h.symm]
  unfold adoptZone
  dsimp only
  split
  · split
    · split
      · exact set _
      · exact plan_zone_of_ne h _ _
    · split
      · exact set _
      · exact plan_zone_of_ne h _ _
  · exact set _

theorem adoptTrip_zones (p : Fin 4) (old : PortalRecord) (s : State) :
    (adoptTrip p old s).zones = s.zones := by
  have reread (c : Prop) [Decidable c] (u : TripUnit) :
      (if c then s.setTrip p u else s).zones = s.zones := by split <;> rfl
  have latched (u : State) : (latchFire p u).zones = u.zones := by
    unfold latchFire
    split <;> rfl
  unfold adoptTrip
  dsimp only
  split
  · exact reread _ _
  · exact (latched _).trans (reread _ _)

theorem adoptTripped_isSome (p : Fin 4) (z : Fin 5) (x : PendingSet) (s : State) :
    ((adoptTripped p x s).zone p z).isSome = rd x.set.record.zones z := by
  have hchan := adoptChannels_output p (s.set p) (adoptResolved p x s)
  have hset : (adoptChannels p (s.set p) (adoptResolved p x s)).set p = x.set := by
    rw [State.set, hchan.active]
    exact adoptResolved_sets p x s
  have keeps (y : Fin 5) (u : State) (hu : u.set p = x.set) :
      (adoptZone p (s.set p) y u).set p = x.set := by
    rw [State.set, (adoptZone_output p (s.set p) y u).active]
    exact hu
  have lighted : ((adoptLighted p x s).zone p z).isSome = rd x.set.record.zones z := by
    refine forEach_once (Q := fun u => u.set p = x.set)
      (P := fun u => (u.zone p z).isSome = rd x.set.record.zones z) (f := adoptZone p (s.set p))
      allZones_nodup (mem_allZones z) (fun u hu => ?_) (fun y _ _ u hu => keeps y u hu)
      (fun y _ hy u hu => ?_) _ hset
    · rw [adoptZone_isSome]
      exact congrArg (fun v : PortalSet => rd v.record.zones z) hu
    · rw [adoptZone_zone_of_ne hy.symm]
      exact hu
  rw [adoptTripped, recompute_isSome, State.zone, adoptTrip_zones]
  exact lighted

theorem changeMeter_meter (m : Fin 8) (p : Fin 4) (cause : MeterCause) (x : Meter) (s : State) :
    (changeMeter m p cause x s).meters = wr s.meters m x := by
  unfold changeMeter
  dsimp only
  split <;> rfl

/-- A meter that neither record binds is left alone. -/
theorem adoptMeter_unbound {p : Fin 4} {old new : PortalRecord} {m : Fin 8} (ho : old.binds m = false)
    (hn : new.binds m = false) (s : State) : adoptMeter p old new m s = s := by
  unfold adoptMeter
  dsimp only
  rw [if_neg (by rw [hn]; exact Bool.false_ne_true), if_neg (by rw [ho]; exact Bool.false_ne_true)]

theorem adoptMeter_meter_of_ne {m k : Fin 8} (h : m ≠ k) (p : Fin 4) (old new : PortalRecord) (s : State) :
    (adoptMeter p old new m s).meter k = s.meter k := by
  have changed (cause : MeterCause) (x : Meter) (u : State) (hu : u.meter k = s.meter k) :
      (changeMeter m p cause x u).meter k = s.meter k := by
    rw [State.meter, changeMeter_meter, rd_wr_of_ne _ _ h]
    exact hu
  have kept (x : Meter) : (s.setMeter m x).meter k = s.meter k := rd_wr_of_ne _ _ h
  unfold adoptMeter
  dsimp only
  split
  · split
    · split
      · exact changed _ _ _ (kept _)
      · exact kept _
    · exact changed _ _ _ rfl
  · split
    · exact changed _ _ _ rfl
    · rfl

/-- The Meter Intake has done its part before the source. -/
theorem adoptResolved_meters (p : Fin 4) (x : PendingSet) (s : State) :
    (adoptResolved p x s).meters = (adoptBound p x s).meters := by
  have sourced : (adoptSourced p x s).meters = (adoptBound p x s).meters := by
    obtain ⟨e, he⟩ := adoptSourced_rest p x s
    rw [he]
    rfl
  have formed : (adoptFormed p x s).meters = (adoptSourced p x s).meters := by
    obtain ⟨⟨-, -, hm, -⟩, -⟩ := evaluateOnly_same p (adoptSourced p x s)
    exact hm
  have selected (u : State) : (adoptSelection p u).meters = u.meters := by
    unfold adoptSelection
    dsimp only
    split <;> rfl
  have frozen (u : State) : (rewriteFreezes p u).meters = u.meters := rfl
  have resolved (u : State) : (resolveStage p u).meters = u.meters := by
    unfold resolveStage
    dsimp only
    split <;> rfl
  rw [adoptResolved, resolved, frozen, selected, formed, sourced]

theorem adoptTripped_unbound {p : Fin 4} {x : PendingSet} {s : State} {m : Fin 8}
    (ho : (s.record p).binds m = false) (hn : x.set.record.binds m = false) :
    (adoptTripped p x s).meter m = s.meter m := by
  rw [State.meter, (adoptTripped_output p x s).meters, adoptResolved_meters]
  refine forEach_keeps (P := fun u => u.meter m = s.meter m)
    (f := adoptMeter p (s.record p) x.set.record) (fun k _ u hu => ?_) _ rfl
  by_cases hk : k = m
  · rw [hk, adoptMeter_unbound ho hn]
    exact hu
  · rw [adoptMeter_meter_of_ne hk]
    exact hu

/-- A record that a queue has taken without an overflow stands last in it. -/
theorem place_getLast {q : EventQueue} {e : Event} {time : Nat}
    (ho : (q.place e time).overflowed = false) (hk : e.keptOut (q.place e time).mask = false) :
    ((q.place e time).records.getLast?).map EventRecord.event = some e := by
  have hmask : (q.place e time).mask = q.mask := by
    unfold EventQueue.place
    split
    · rfl
    · split
      · rfl
      · split <;> rfl
  rw [hmask] at hk
  unfold EventQueue.place at ho ⊢
  rw [hk, if_neg Bool.false_ne_true] at ho ⊢
  split
  · next hq =>
    rw [if_pos hq] at ho
    exact absurd ho (by simp [hq])
  · next hq =>
    rw [if_neg hq] at ho
    split
    · simp [EventQueue.append]
    · next hl =>
      rw [if_neg hl] at ho
      cases ho

/-- The blocks of the other portals, as ADOPTION leaves them. -/
theorem adoptTripped_others {p q : Fin 4} (x : PendingSet) (s : State) (hq : q ≠ p) :
    (adoptTripped p x s).blocks q = s.blocks q := by
  have hact : (activate p x.set s).blocks q = s.blocks q := by
    rw [activate, blocks_setBase hq]
    rfl
  exact ((adoptTripped_adoptsAt p x s).2 q hq).trans hact

/-- The other portals' blocks after the ADOPTION (R165). -/
theorem adopted_others {p q : Fin 4} (x : PendingSet) (s : State) (hq : q ≠ p) :
    let t := beginTransactions (adopt p x s)
    t.set q = s.set q ∧ t.edit q = s.edit q ∧ t.baseOf q = s.baseOf q ∧
      t.arbiter q = s.arbiter q ∧ t.selector q = s.selector q ∧ t.eval q = s.eval q ∧
      t.tripUnit q = s.tripUnit q ∧ rd t.zones q = rd s.zones q := by
  have hr := adopted_report p x s
  obtain ⟨hfixed, -⟩ := adoptTripped_adoptsAt p x s
  simp only [State.fixed, Prod.mk.injEq] at hfixed
  obtain ⟨-, hactive, hedits, -⟩ := hfixed
  have hb := adoptTripped_others x s hq
  simp only [State.blocks, Prod.mk.injEq] at hb
  obtain ⟨⟨h1, h2, h3, h4⟩, h5, h6, -⟩ := hb
  have hset : (activate p x.set s).set q = s.set q := rd_wr_of_ne _ _ hq.symm
  have hedit : (activate p x.set s).edit q = s.edit q := by
    simp [activate, State.edit, hq.symm]
  have hkept : (beginTransactions (adopt p x s)).edit q = (adoptTripped p x s).edit q := by
    have refreshed (u : State) : (refreshShadow p u).edit q = u.edit q := by
      unfold refreshShadow
      dsimp only
      split
      · exact rd_wr_of_ne _ _ hq.symm
      · rfl
    have posted (u : State) (e : Event) : (postAll e u).edit q = u.edit q := rfl
    rw [State.edit, beginTransactions_edits, adopt_eq]
    exact (refreshed _).trans (posted _ _)
  refine ⟨?_, ?_, ?_, ?_, ?_, ?_, ?_, ?_⟩
  · rw [State.set, hr.active, hactive]
    exact hset
  · rw [hkept, State.edit, hedits]
    exact hedit
  · rw [State.baseOf, hr.base]
    exact h1
  · rw [State.arbiter, hr.arbiters]
    exact h4
  · rw [State.selector, hr.selectors]
    exact h3
  · rw [State.eval, hr.evals]
    exact h2
  · rw [State.tripUnit, hr.trips]
    exact h6
  · rw [hr.zones]
    exact h5

theorem exec_adoption {p : Fin 4} {x : PendingSet} {s : State} (hx : (s.edit p).pendingSet = some x)
    (hpoint : s.adoptionPoint p = true) :
    exec (.adoption p) s = .next (beginTransactions (adopt p x s)) := by
  have hready : adoptIfReady p s = adopt p x s := by
    unfold adoptIfReady
    rw [hx]
    exact if_pos hpoint
  exact congrArg (fun u => Host.Outcome.next (beginTransactions u)) hready

theorem exec_adoption_none {p : Fin 4} {s : State}
    (h : (s.edit p).pendingSet = none ∨ s.adoptionPoint p = false) : exec (.adoption p) s = done s := by
  have hready : adoptIfReady p s = s := by
    unfold adoptIfReady
    split
    · rfl
    · next x hx =>
      rcases h with h | h
      · rw [h] at hx
        cases hx
      · rw [if_neg (by rw [h]; exact Bool.false_ne_true)]
  exact congrArg done hready

/-- Settles O23, block by block. -/
theorem adoptionReplacesTheActiveSet : Obligations.AdoptionReplacesTheActiveSet := by
  intro p s
  refine ⟨exec_adoption_none, fun x hx hpoint =>
    ⟨beginTransactions (adopt p x s), exec_adoption hx hpoint, ?_⟩⟩
  have hr := adopted_report p x s
  have harb : (beginTransactions (adopt p x s)).arbiter p = (adoptResolved p x s).arbiter p := by
    rw [State.arbiter, hr.arbiters, (adoptTripped_output p x s).arbiters]
  have hbase := adoptTripped_baseOf p x s
  have hstatus : (beginTransactions (adopt p x s)).statusOf p = (adoptTripped p x s).statusOf p := by
    rw [State.statusOf, State.arbiter, State.eval, hr.arbiters, hr.evals]
    rfl
  obtain ⟨hfixed, -⟩ := adoptTripped_adoptsAt p x s
  simp only [State.fixed, Prod.mk.injEq] at hfixed
  obtain ⟨-, -, -, himage, hstoring, hports, hcounter⟩ := hfixed
  obtain ⟨i, hi⟩ := adoptResolved_arbiter p x s
  dsimp only at hi
  rw [State.baseOf, hr.base, hstatus]
  rw [State.baseOf] at hbase
  refine ⟨?_, ?_, fun he => ?_, fun he hrun => ?_, fun he hrun => ?_, ?_, ?_, fun z => ?_, fun q hq => ?_,
    fun m ho hn => ?_, ?_, ?_, ?_, ?_, ?_, fun seat ho hm => ?_⟩
  · rw [State.set, hr.active]
    exact adopted_set p x s
  · rw [State.edit, beginTransactions_edits]
    exact adopt_edit p x s
  · rw [hbase, he]
    rfl
  · rw [hbase, he, hrun]
    rfl
  · have hstart : (s.baseOf p).adopt x.set.record.enabled = .starting := by
      rw [he]
      cases hb : s.baseOf p
      · rfl
      · rfl
      · exact absurd hb hrun
    simp only [hbase, hstart, ← starts_iff, true_and]
  · rw [harb, hi]
  · rw [harb, hi]
    rfl
  · rw [State.zone, hr.zones]
    exact adoptTripped_isSome p z x s
  · exact adopted_others x s hq
  · rw [State.meter, hr.meters]
    exact adoptTripped_unbound ho hn
  · obtain ⟨c1, c2, c3, c4, c5, c6⟩ := adopted_clock p x s
    exact ⟨hr.now.trans c1, hr.nextRamp.trans c2, hr.resetCause.trans c3, hr.freeIndex.trans c4,
      hr.firePins.trans c5, hr.pending.trans c6⟩
  · exact hr.image.trans himage
  · exact hr.storing.trans hstoring
  · exact hr.ports.trans hports
  · exact hr.claimCounter.trans hcounter
  · rw [State.queue, beginTransactions_queues] at ho hm ⊢
    rw [← State.queue, adopt_queue] at ho hm ⊢
    refine place_getLast ho ?_
    rw [Event.keptOut]
    simp [Event.kind, hm]

end Sys2Proof.Machine
end

section
namespace Sys2Proof.Machine

/-! ### What one seat is told -/

/-- From `s` to `t` the events of one list, each of which meets `E`, have been placed in the queue of one
seat, at one moment. -/
def PostsTo (seat : Seat) (E : Event → Prop) (s t : State) : Prop :=
  t.now = s.now ∧ ∃ l : List Event, (∀ e ∈ l, E e) ∧
    t.queue seat = l.foldl (fun q e => q.place e s.uptime) (s.queue seat)

theorem Broadcasts.to {E : Event → Prop} {s t : State} (h : Broadcasts E s t) (seat : Seat) :
    PostsTo seat E s t := by
  obtain ⟨hn, l, hl, hq⟩ := h
  exact ⟨hn, l, hl, hq seat⟩

namespace PostsTo

variable {seat : Seat} {E : Event → Prop} {s t u : State}

theorem quiet (hn : t.now = s.now) (hq : t.queue seat = s.queue seat) : PostsTo seat E s t :=
  ⟨hn, [], by simp, hq⟩

theorem trans (h : PostsTo seat E s t) (k : PostsTo seat E t u) : PostsTo seat E s u := by
  obtain ⟨hn, l, hl, hq⟩ := h
  obtain ⟨kn, m, hm, kq⟩ := k
  refine ⟨kn.trans hn, l ++ m, fun e he => ?_, ?_⟩
  · rcases List.mem_append.mp he with he | he
    · exact hl e he
    · exact hm e he
  · rw [kq, hq, uptime_of_now hn, List.foldl_append]

theorem mono {F : Event → Prop} (hEF : ∀ e, E e → F e) (h : PostsTo seat E s t) : PostsTo seat F s t := by
  obtain ⟨hn, l, hl, hq⟩ := h
  exact ⟨hn, l, fun e he => hEF e (hl e he), hq⟩

theorem forEach {α : Type} {l : List α} {f : α → State → State}
    (h : ∀ a ∈ l, ∀ u, PostsTo seat E u (f a u)) (s : State) : PostsTo seat E s (forEach l f s) :=
  forEach_keeps (P := PostsTo seat E s) (fun a ha u hu => hu.trans (h a ha u)) s (quiet rfl rfl)

end PostsTo

/-- The lists that distinct elements place in a queue, one after the other, where each list is known before
the repetition begins. -/
theorem forEach_queue {α : Type} {seat : Seat} {l : List α} {f : α → State → State}
    {told : α → State → List Event} (hn : l.Nodup) (hnow : ∀ a ∈ l, ∀ u, (f a u).now = u.now)
    (hq : ∀ a ∈ l, ∀ u,
      (f a u).queue seat = (told a u).foldl (fun q e => q.place e u.uptime) (u.queue seat))
    (hother : ∀ a ∈ l, ∀ b ∈ l, b ≠ a → ∀ u, told b (f a u) = told b u) (s : State) :
    (forEach l f s).queue seat =
      (l.flatMap fun a => told a s).foldl (fun q e => q.place e s.uptime) (s.queue seat) := by
  induction l generalizing s with
  | nil => rfl
  | cons a rest ih =>
    obtain ⟨ha, hrest⟩ := List.nodup_cons.mp hn
    have hsame : rest.flatMap (fun b => told b (f a s)) = rest.flatMap (fun b => told b s) :=
      List.flatMap_congr fun b hb =>
        hother a List.mem_cons_self b (List.mem_cons_of_mem a hb) (fun h => ha (h ▸ hb)) s
    have step := ih hrest (fun b hb => hnow b (List.mem_cons_of_mem a hb))
      (fun b hb => hq b (List.mem_cons_of_mem a hb))
      (fun b hb c hc => hother b (List.mem_cons_of_mem a hb) c (List.mem_cons_of_mem a hc)) (f a s)
    rw [hsame, hq a List.mem_cons_self, uptime_of_now (hnow a List.mem_cons_self s)] at step
    rw [List.flatMap_cons, List.foldl_append]
    exact step

/-! ### What an adoption tells of -/

/-- LINE_STATE, TRIPPED, TRIP_CLEARED or ADOPTED. -/
def ClosingEvent (p : Fin 4) (e : Event) : Prop :=
  (∃ x, e = .lineState p x) ∨ TripEvent p e ∨ ∃ x, e = .adopted p x

section Adopt

variable (p : Fin 4) (x : PendingSet) (s : State) (seat : Seat)

/-- Between the Meter Intake and the channels, the source and the stage alone are told of. -/
theorem adoptResolved_posts :
    PostsTo seat (StageOrSource p) (adoptBound p x s) (adoptResolved p x s) := by
  have sourced : PostsTo seat (StageOrSource p) (adoptBound p x s) (adoptSourced p x s) := by
    obtain ⟨e, he⟩ := adoptSourced_rest p x s
    rw [he]
    exact .quiet rfl rfl
  have formed : PostsTo seat (StageOrSource p) (adoptSourced p x s) (adoptFormed p x s) :=
    (evaluateOnly_broadcasts p _).to seat
  have selected (u : State) : PostsTo seat (StageOrSource p) u (adoptSelection p u) := by
    unfold adoptSelection
    dsimp only
    split <;> exact .quiet rfl rfl
  have frozen (u : State) : PostsTo seat (StageOrSource p) u (rewriteFreezes p u) := .quiet rfl rfl
  have resolved (u : State) : PostsTo seat (StageOrSource p) u (resolveStage p u) :=
    (resolveStage_broadcasts p u).to seat
  exact sourced.trans (formed.trans ((selected _).trans ((frozen _).trans (resolved _))))

/-- The seat of a hand channel that is released is told, and no other (R102). -/
theorem releaseForAdoption_queue (k : Circuit) (u : State) :
    (releaseForAdoption k u).queue seat =
      (if (u.channel k.cfg.channel).hand.any fun y => y.seat == seat then
        [.handReleased k.portal k.cfg.channel .adoption] else []).foldl
        (fun q e => q.place e u.uptime) (u.queue seat) := by
  unfold releaseForAdoption
  dsimp only
  split
  · next h => rw [h]; rfl
  · next y h =>
    rw [h, Option.any_some, postTo, queue_setQueue]
    by_cases hs : y.seat = seat
    · subst hs
      rw [if_pos rfl, if_pos (by simp)]
      rfl
    · rw [if_neg hs, if_neg (by simpa using hs)]
      rfl

theorem releaseForAdoption_now (k : Circuit) (u : State) : (releaseForAdoption k u).now = u.now :=
  (releaseForAdoption_rest k u).now

/-- HAND_RELEASED of portal `p` for an adoption. -/
def ReleaseEvent (p : Fin 4) (e : Event) : Prop := ∃ c, e = .handReleased p c .adoption

theorem releaseForAdoption_posts (k : Circuit) (u : State) :
    PostsTo seat (ReleaseEvent k.portal) u (releaseForAdoption k u) := by
  refine ⟨releaseForAdoption_now k u, _, fun e he => ?_, releaseForAdoption_queue seat k u⟩
  split at he
  · exact ⟨k.cfg.channel, List.mem_singleton.mp he⟩
  · cases he

theorem leavePass_posts (new : PortalSet) (k : Circuit) (u : State) :
    PostsTo seat (ReleaseEvent k.portal) u (leavePass new k u) := by
  have left (replaced : Bool) : PostsTo seat (ReleaseEvent k.portal) u (leaveChannel k replaced u) :=
    (releaseForAdoption_posts seat k u).trans (.quiet rfl rfl)
  unfold leavePass
  split
  · exact left _
  · split
    · exact .quiet rfl rfl
    · exact left _

theorem keepChannel_quiet (k : Circuit) (u : State) :
    (keepChannel k u).now = u.now ∧ (keepChannel k u).queues = u.queues := by
  unfold keepChannel
  dsimp only
  split
  · exact ⟨rfl, rfl⟩
  · split
    · exact ⟨rfl, rfl⟩
    · exact command_keeps (quietLight k.portal u) k rfl _ _ ⟨rfl, rfl⟩

theorem joinPass_posts (old : PortalSet) (down : Bool) (k : Circuit) (u : State) :
    PostsTo seat (ReleaseEvent k.portal) u (joinPass old down k u) := by
  unfold joinPass
  dsimp only
  split
  · exact .quiet rfl rfl
  · split
    · exact .quiet rfl rfl
    · split
      · exact .quiet (keepChannel_quiet k u).1 (by rw [State.queue, (keepChannel_quiet k u).2])
      · exact releaseForAdoption_posts seat k u

theorem settlePass_quiet (k : Circuit) (u : State) :
    (settlePass k u).now = u.now ∧ (settlePass k u).queues = u.queues := by
  have light := quietLight k.portal u
  have targeted : (if k.cfg.zone = none then driveSwitched k (giveTarget k 0 u) else u).now = u.now ∧
      (if k.cfg.zone = none then driveSwitched k (giveTarget k 0 u) else u).queues = u.queues := by
    split
    · exact driveSwitched_keeps light k rfl _ (giveTarget_keeps light k rfl _ _ ⟨rfl, rfl⟩)
    · exact ⟨rfl, rfl⟩
  unfold settlePass
  dsimp only
  split
  · exact command_keeps light k rfl _ _ targeted
  · exact targeted

theorem adoptZone_quiet (old : PortalSet) (z : Fin 5) (u : State) :
    (adoptZone p old z u).now = u.now ∧ (adoptZone p old z u).queues = u.queues := by
  have planned (zn : Zone) := plan_keeps (quietLight p u) z zn u ⟨rfl, rfl⟩
  unfold adoptZone
  dsimp only
  split
  · split
    · split
      · exact ⟨rfl, rfl⟩
      · exact planned _
    · split
      · exact ⟨rfl, rfl⟩
      · exact planned _
  · exact ⟨rfl, rfl⟩

theorem adoptTrip_quiet (old : PortalRecord) (u : State) :
    (adoptTrip p old u).now = u.now ∧ (adoptTrip p old u).queues = u.queues := by
  have reread (c : Prop) [Decidable c] (v : TripUnit) :
      (if c then u.setTrip p v else u).now = u.now ∧
        (if c then u.setTrip p v else u).queues = u.queues := by split <;> exact ⟨rfl, rfl⟩
  have latched (v : State) (h : v.now = u.now ∧ v.queues = u.queues) :
      (latchFire p v).now = u.now ∧ (latchFire p v).queues = u.queues := by
    unfold latchFire
    split <;> exact h
  unfold adoptTrip
  dsimp only
  split
  · exact reread _ _
  · exact latched _ (reread _ _)

/-- The channels of the new set have joined, and of the old one left. -/
def adoptJoined : State :=
  forEach (x.set.circuits p) (joinPass (s.set p) ((adoptResolved p x s).lampLine p).down)
    (forEach ((s.set p).circuits p) (leavePass x.set) (adoptResolved p x s))

theorem adoptJoined_posts : PostsTo seat (ReleaseEvent p) (adoptResolved p x s) (adoptJoined p x s) := by
  have left (u : State) : PostsTo seat (ReleaseEvent p) u
      (forEach ((s.set p).circuits p) (leavePass x.set) u) :=
    .forEach (fun k hk v => circuit_portal hk ▸ leavePass_posts seat x.set k v) u
  have joined (down : Bool) (u : State) : PostsTo seat (ReleaseEvent p) u
      (forEach (x.set.circuits p) (joinPass (s.set p) down) u) :=
    .forEach (fun k hk v => circuit_portal hk ▸ joinPass_posts seat (s.set p) down k v) u
  exact (left _).trans (joined _ _)

theorem adoptLighted_eq :
    adoptLighted p x s = forEach allZones (adoptZone p (s.set p))
      (testLineOnly p (forEach (x.set.circuits p) settlePass (adoptJoined p x s))) := by
  have hset := adoptResolved_sets p x s
  rw [adoptLighted, adoptChannels, adoptJoined, State.circuits, hset]

/-- Once the channels have joined, the line condition, the trips and ADOPTED are told of. -/
theorem adopt_closing : PostsTo seat (ClosingEvent p) (adoptJoined p x s) (adopt p x s) := by
  have settled (u : State) : PostsTo seat (ClosingEvent p) u
      (forEach (x.set.circuits p) settlePass u) :=
    .forEach (fun k _ v => .quiet (settlePass_quiet k v).1
      (by rw [State.queue, (settlePass_quiet k v).2])) u
  have tested (u : State) : PostsTo seat (ClosingEvent p) u (testLineOnly p u) :=
    ((testLineOnly_broadcasts p u).mono fun _ h => Or.inl h).to seat
  have zoned (u : State) : PostsTo seat (ClosingEvent p) u
      (forEach allZones (adoptZone p (s.set p)) u) :=
    .forEach (fun z _ v => .quiet (adoptZone_quiet p _ z v).1
      (by rw [State.queue, (adoptZone_quiet p _ z v).2])) u
  have tripped (u : State) : PostsTo seat (ClosingEvent p) u (adoptTrip p (s.record p) u) :=
    .quiet (adoptTrip_quiet p _ u).1 (by rw [State.queue, (adoptTrip_quiet p _ u).2])
  have recomputed (u : State) : PostsTo seat (ClosingEvent p) u (recompute p u) :=
    ((recompute_broadcasts p u).mono fun _ h => Or.inr (Or.inl h)).to seat
  have told : PostsTo seat (ClosingEvent p) (adoptTripped p x s) (adopt p x s) :=
    ⟨(adopt_report p x s).now, [.adopted p x.seat],
      by simp [ClosingEvent], by
        rw [adopt_queue, ← uptime_of_now (adopted_clock p x s).1]
        rfl⟩
  refine .trans ?_ told
  rw [adoptTripped, adoptLighted_eq]
  exact (settled _).trans ((tested _).trans ((zoned _).trans ((tripped _).trans (recomputed _))))

end Adopt

end Sys2Proof.Machine
end

section
namespace Sys2Proof.Machine

/-! ### The Meter Intake at an adoption (R19) -/

/-- A meter after an adoption. -/
def Meter.adopted (y : Meter) (old new : PortalRecord) (m : Fin 8) (tenths : Nat) : Meter :=
  if new.binds m then
    if old.binds m then
      if (y.rebind new.tStale).staleDeadline.any fun d => decide (d ≤ tenths) then
        (y.rebind new.tStale).expire
      else y.rebind new.tStale
    else y.restart
  else if old.binds m then Meter.unused
  else y

/-- What is told of a meter at an adoption (R24). -/
def Meter.told (y : Meter) (p : Fin 4) (old new : PortalRecord) (m : Fin 8) (tenths : Nat) : List Event :=
  if new.binds m && !old.binds m && y.state != .starting then
    [.meterState p m .bound y.state .starting]
  else if !new.binds m && old.binds m && y.state != .unused then
    [.meterState p m .unbound y.state .unused]
  else if new.binds m && old.binds m && y.state == .valid &&
      (y.rebind new.tStale).staleDeadline.any fun d => decide (d ≤ tenths) then
    [.meterState p m .timeout .valid .stale]
  else []

theorem passed_eq (s : State) (d : Option Nat) :
    s.passed d = d.any fun d => decide (d ≤ s.tenths) := by
  cases d <;> rfl

theorem rebind_state (y : Meter) (t : Nat) : (y.rebind t).state = y.state := by
  unfold Meter.rebind
  split <;> rfl

theorem changeMeter_queue (m : Fin 8) (p : Fin 4) (cause : MeterCause) (x : Meter) (s : State)
    (seat : Seat) : (changeMeter m p cause x s).queue seat =
      if (s.meter m).state = x.state then s.queue seat
      else (s.queue seat).place (.meterState p m cause (s.meter m).state x.state) s.uptime := by
  unfold changeMeter
  dsimp only
  split
  · rfl
  · exact postAll_queue _ _ _

section Meters

variable (p : Fin 4) (old new : PortalRecord) (m : Fin 8) (s : State)

theorem adoptMeter_meter :
    (adoptMeter p old new m s).meter m = (s.meter m).adopted old new m s.tenths := by
  have changed (cause : MeterCause) (x : Meter) (u : State) :
      (changeMeter m p cause x u).meter m = x := by
    rw [State.meter, changeMeter_meter, rd_wr_self]
  have hpassed (x : Meter) : (s.setMeter m x).passed x.staleDeadline =
      x.staleDeadline.any fun d => decide (d ≤ s.tenths) := passed_eq _ _
  unfold adoptMeter Meter.adopted
  dsimp only
  rw [hpassed]
  split
  · split
    · split
      · exact changed _ _ _
      · exact rd_wr_self _ _ _
    · exact changed _ _ _
  · split
    · exact changed _ _ _
    · rfl

/-- The passing of the stale deadline changes the state of a VALID meter alone (R20, R21). -/
theorem expire_state (y : Meter) : y.expire.state = if y.state = .valid then .stale else y.state := by
  unfold Meter.expire
  split <;> simp_all

theorem adoptMeter_queue (seat : Seat) :
    (adoptMeter p old new m s).queue seat =
      ((s.meter m).told p old new m s.tenths).foldl (fun q e => q.place e s.uptime) (s.queue seat) := by
  have hpassed (x : Meter) : (s.setMeter m x).passed x.staleDeadline =
      x.staleDeadline.any fun d => decide (d ≤ s.tenths) := passed_eq _ _
  have hset (x : Meter) : ((s.setMeter m x).meter m) = x := rd_wr_self _ _ _
  have hunused : Meter.unused.state = .unused := rfl
  have hrestart (x : Meter) : x.restart.state = .starting := rfl
  unfold adoptMeter Meter.told
  dsimp only
  rw [hpassed]
  cases hn : new.binds m <;> cases ho : old.binds m
  · rfl
  · simp only [Bool.false_eq_true, if_false, if_true, changeMeter_queue, hunused, Bool.false_and, Bool.not_false,
      Bool.true_and, bne_iff_ne, ne_eq, ite_not]
    by_cases hu : (s.meter m).state = .unused
    · rw [if_pos hu, if_pos hu]
      rfl
    · rw [if_neg hu, if_neg hu]
      rfl
  · simp only [Bool.false_eq_true, if_false, if_true, changeMeter_queue, hrestart, Bool.false_and, Bool.not_false,
      Bool.not_true, Bool.and_false, Bool.true_and, bne_iff_ne, ne_eq, ite_not]
    by_cases hu : (s.meter m).state = .starting
    · rw [if_pos hu, if_pos hu]
      rfl
    · rw [if_neg hu, if_neg hu]
      rfl
  · simp only [Bool.false_eq_true, if_false, if_true, Bool.false_and, Bool.not_true, Bool.and_false,
      Bool.true_and, Bool.and_eq_true, beq_iff_eq]
    cases hd : ((s.meter m).rebind new.tStale).staleDeadline.any fun d => decide (d ≤ s.tenths)
    · simp only [Bool.false_eq_true, and_false, if_false]
      rfl
    · simp only [and_true, if_true, changeMeter_queue, hset, expire_state, rebind_state]
      by_cases hv : (s.meter m).state = .valid
      · rw [if_pos hv, if_pos hv, hv, if_neg (by decide)]
        rfl
      · rw [if_neg hv, if_neg hv, if_pos rfl]
        rfl

end Meters

/-- A bound meter that stays bound, under the new Tstale. -/
theorem adopted_of_kept {y : Meter} {old new : PortalRecord} {m : Fin 8} {tenths : Nat}
    (hn : new.binds m = true) (ho : old.binds m = true) :
    (y.state = .stale ∨ y.state = .faulted → y.staleDeadline = none → y.adopted old new m tenths = y) ∧
      ∀ r ∈ y.ring.getLast?, y.state = .valid ∨ y.state = .starting →
        (tenths < r.arrival + 10 * new.tStale →
          y.adopted old new m tenths = { y with staleDeadline := some (r.arrival + 10 * new.tStale) }) ∧
        (r.arrival + 10 * new.tStale ≤ tenths → y.state = .valid →
          y.adopted old new m tenths = { y with state := .stale, staleDeadline := none }) ∧
        (r.arrival + 10 * new.tStale ≤ tenths → y.state = .starting →
          y.adopted old new m tenths = { y with ring := [], staleDeadline := none }) := by
  have heq : y.adopted old new m tenths =
      if (y.rebind new.tStale).staleDeadline.any fun d => decide (d ≤ tenths) then
        (y.rebind new.tStale).expire
      else y.rebind new.tStale := by
    rw [Meter.adopted, if_pos hn, if_pos ho]
  rw [heq]
  constructor
  · intro hst hd
    have hre : y.rebind new.tStale = y := by
      unfold Meter.rebind
      rcases hst with h | h <;> rw [h]
    rw [hre, hd]
    rfl
  · intro r hr hst
    have hre : y.rebind new.tStale =
        { y with staleDeadline := some (r.arrival + 10 * new.tStale) } := by
      unfold Meter.rebind
      rcases hst with h | h <;> rw [h, Option.mem_def.mp hr]
    rw [hre, Option.any_some]
    refine ⟨fun hlt => ?_, fun hle hv => ?_, fun hle hv => ?_⟩
    · rw [if_neg (by simpa using hlt)]
    · rw [if_pos (by simpa using hle), Meter.expire]
      simp [hv]
    · rw [if_pos (by simpa using hle), Meter.expire]
      simp [hv]

theorem allMeters_nodup : allMeters.Nodup := by decide

theorem mem_allMeters (m : Fin 8) : m ∈ allMeters := by
  revert m
  decide

section Bound

variable (p : Fin 4) (x : PendingSet) (s : State)

theorem adoptTripped_meter (m : Fin 8) :
    (adoptTripped p x s).meter m = (s.meter m).adopted (s.record p) x.set.record m s.tenths := by
  rw [State.meter, (adoptTripped_output p x s).meters, adoptResolved_meters]
  refine forEach_once
    (P := fun u => u.meter m = (s.meter m).adopted (s.record p) x.set.record m s.tenths)
    (Q := fun u => u.meter m = s.meter m ∧ u.now = s.now)
    (f := adoptMeter p (s.record p) x.set.record)
    allMeters_nodup (mem_allMeters m) (fun u hu => ?_) (fun k _ hk u hu => ?_) (fun k _ hk u hu => ?_) _
    ⟨rfl, rfl⟩
  · rw [adoptMeter_meter, hu.1, State.tenths, hu.2]
    rfl
  · exact ⟨(adoptMeter_meter_of_ne hk _ _ _ _).trans hu.1, (adoptMeter_rest _ _ _ _ _).now.trans hu.2⟩
  · exact (adoptMeter_meter_of_ne hk _ _ _ _).trans hu

/-- The Meter Intake tells of its meters in ascending order (R24). -/
theorem adoptBound_queue (seat : Seat) :
    (adoptBound p x s).queue seat =
      (allMeters.flatMap fun m => (s.meter m).told p (s.record p) x.set.record m s.tenths).foldl
        (fun q e => q.place e s.uptime) (s.queue seat) := by
  refine forEach_queue (seat := seat) (f := adoptMeter p (s.record p) x.set.record)
    (told := fun m u => (u.meter m).told p (s.record p) x.set.record m u.tenths)
    allMeters_nodup (fun m _ u => (adoptMeter_rest _ _ _ _ _).now) (fun m _ u => adoptMeter_queue _ _ _ _ _ _)
    (fun m _ k _ hk u => ?_) (activate p x.set s)
  rw [adoptMeter_meter_of_ne hk.symm, State.tenths, (adoptMeter_rest _ _ _ _ _).now]
  rfl

end Bound

end Sys2Proof.Machine
end

section
namespace Sys2Proof.Machine

/-! ### The Portal Evaluator at an adoption (R2, R27 to R29) -/

/-- The evaluator that an adoption leaves in the source `e`, if its hold has passed its new expiry (R28). -/
def Evaluator.heldUntil (e : Evaluator) (tHold now : Nat) : Evaluator :=
  if e.source = .hold ∧ (e.holdSince.any fun t => decide (t + tHold * 1000 ≤ now)) = true then e.lose else e

/-- The mismatch timer stops at a change of the bound meters (R33). -/
def Evaluator.rebound (e : Evaluator) (old new : PortalRecord) : Evaluator :=
  if old.slot0 = new.slot0 ∧ old.slot1 = new.slot1 then e
  else { e with mismatchSince := none, mismatchReported := false }

/-- A portal that enters STARTING or UNCONFIGURED has no source. -/
def Evaluator.stopped (e : Evaluator) : Evaluator :=
  { e with source := .none, luminance := 0, demand := 0, holdSince := none }

theorem adoptSource_eval (p : Fin 4) (base : BaseState) (old : PortalRecord) (best : Nat) (s : State) :
    (adoptSource p base old best s).eval p =
      (if s.baseOf p ≠ base ∧ s.baseOf p ≠ .running then ((s.eval p).rebound old (s.record p)).stopped
        else if s.validEstimates p = [] then
          ((s.eval p).rebound old (s.record p)).loseMeters best (s.record p).tHold s.now
        else (s.eval p).rebound old (s.record p)).heldUntil (s.record p).tHold s.now := by
  have written (e : Evaluator) :
      (if e.source = .hold ∧ (s.setEval p e).due ((s.setEval p e).holdEnd p) = true then
          (s.setEval p e).setEval p e.lose else s.setEval p e).eval p =
        e.heldUntil (s.record p).tHold s.now := by
    have hdue : (s.setEval p e).due ((s.setEval p e).holdEnd p) =
        e.holdSince.any fun t => decide (t + (s.record p).tHold * 1000 ≤ s.now) := by
      have hr : (s.setEval p e).eval p = e := rd_wr_self _ _ _
      rw [State.holdEnd, hr]
      cases e.holdSince <;> rfl
    rw [hdue, Evaluator.heldUntil]
    split
    · exact rd_wr_self _ _ _
    · exact rd_wr_self _ _ _
  exact written _

theorem rebound_source (e : Evaluator) (old new : PortalRecord) :
    (e.rebound old new).source = e.source ∧ (e.rebound old new).holdSince = e.holdSince := by
  unfold Evaluator.rebound
  split <;> exact ⟨rfl, rfl⟩

/-- The source of a portal that stays RUNNING (R27, R28): `lost` says that no bound meter is VALID. -/
theorem heldUntil_source {e : Evaluator} {best tHold now : Nat} {lost : Prop} [Decidable lost] :
    let f := (if lost then e.loseMeters best tHold now else e).heldUntil tHold now
    (e.source = .live → ¬ lost → f.source = .live) ∧
      (e.source = .live → lost → 0 < tHold → f.source = .hold ∧ f.holdSince = some now) ∧
      (e.source = .live → lost → tHold = 0 → f.source = .lost) ∧
      (∀ since ∈ e.holdSince, e.source = .hold → now < since + tHold * 1000 →
        f.source = .hold ∧ f.holdSince = some since) ∧
      (∀ since ∈ e.holdSince, e.source = .hold → since + tHold * 1000 ≤ now →
        f.source = .lost ∧ f.holdSince = none) ∧
      (e.source = .lost → f.source = .lost) := by
  intro f
  have hnot (h : e.source ≠ .live) : f = e.heldUntil tHold now := by
    have hl : e.loseMeters best tHold now = e := if_neg h
    simp only [f, hl, ite_self]
  refine ⟨fun hs hl => ?_, fun hs hl ht => ?_, fun hs hl ht => ?_, fun since hd hs hlt => ?_,
    fun since hd hs hle => ?_, fun hs => ?_⟩
  · simp only [f, if_neg hl, Evaluator.heldUntil, hs, reduceCtorEq, false_and, if_false]
  · have hlose : e.loseMeters best tHold now =
        { e with source := .hold, holdSince := some now, held := best } := by
      rw [Evaluator.loseMeters, if_pos hs, if_pos ht]
    have hnow : ¬ now + tHold * 1000 ≤ now := by omega
    simp [f, if_pos hl, hlose, Evaluator.heldUntil, hnow]
  · have hlose : e.loseMeters best tHold now = { e with source := .lost, held := best } := by
      rw [Evaluator.loseMeters, if_pos hs, if_neg (by omega)]
    simp [f, if_pos hl, hlose, Evaluator.heldUntil]
  · rw [hnot (by simp [hs]), Evaluator.heldUntil, Option.mem_def.mp hd, if_neg (by simp; omega)]
    exact ⟨hs, hd⟩
  · rw [hnot (by simp [hs]), Evaluator.heldUntil, Option.mem_def.mp hd, if_pos (by simp [hs, hle])]
    exact ⟨rfl, rfl⟩
  · rw [hnot (by simp [hs]), Evaluator.heldUntil, if_neg (by simp [hs])]
    exact hs

theorem mem_meters_iff (r : PortalRecord) (m : Fin 8) : m ∈ r.meters ↔ r.binds m = true := by
  rw [binds_iff, PortalRecord.meters, List.mem_append, Option.mem_toList, Option.mem_toList]

theorem validEstimates_ne (s : State) (p : Fin 4) :
    s.validEstimates p ≠ [] ↔ ∃ m, (s.record p).binds m = true ∧ (s.meter m).state = .valid := by
  rw [State.validEstimates, ne_eq, List.map_eq_nil_iff, List.filter_eq_nil_iff]
  constructor
  · intro h
    by_contra hn
    exact h fun m hm hv => hn ⟨m, (mem_meters_iff _ m).mp hm, by simpa using hv⟩
  · rintro ⟨m, hm, hv⟩ h
    exact h m ((mem_meters_iff _ m).mpr hm) (by simp [hv])

section Source

variable (p : Fin 4) (x : PendingSet) (s : State)

theorem adoptBound_set : (adoptBound p x s).set p = x.set := by
  rw [State.set, (adoptBound_rest p x s).active]
  exact activate_set p x s

theorem adoptBound_baseOf : (adoptBound p x s).baseOf p = (s.baseOf p).adopt x.set.record.enabled := by
  rw [State.baseOf, (adoptBound_rest p x s).base]
  exact rd_wr_self _ _ _

theorem adoptSourced_eval :
    (adoptSourced p x s).eval p =
      (if (s.baseOf p).adopt x.set.record.enabled ≠ s.baseOf p ∧
          (s.baseOf p).adopt x.set.record.enabled ≠ .running then
          ((s.eval p).rebound (s.record p) x.set.record).stopped
        else if (adoptBound p x s).validEstimates p = [] then
          ((s.eval p).rebound (s.record p) x.set.record).loseMeters (s.bestEstimate p)
            x.set.record.tHold s.now
        else (s.eval p).rebound (s.record p) x.set.record).heldUntil x.set.record.tHold s.now := by
  have hrec : (adoptBound p x s).record p = x.set.record :=
    congrArg PortalSet.record (adoptBound_set p x s)
  have heval : (adoptBound p x s).eval p = s.eval p := by
    rw [State.eval, (adoptBound_rest p x s).evals]
    rfl
  have hnow : (adoptBound p x s).now = s.now := (adoptBound_rest p x s).now
  rw [adoptSourced, adoptSource_eval, adoptBound_baseOf, hrec, heval, hnow]

/-- The evaluator after an adoption is the one that its evaluation forms, but for the mismatch test. -/
theorem adoptTripped_eval : ∃ since reported,
    (adoptTripped p x s).eval p =
      { (adoptSourced p x s).formed p with mismatchSince := since, mismatchReported := reported } := by
  obtain ⟨since, reported, h⟩ :=
    testMismatch_eq ((adoptSourced p x s).formed p) ((adoptSourced p x s).pair p) (adoptSourced p x s).now
  exact ⟨since, reported, by rw [(adoptTripped_source p x s).1, adoptFormed, evaluateOnly_eval, h]⟩

theorem adoptTripped_topInject :
    ((adoptTripped p x s).arbiter p).topInject = (s.arbiter p).topInject := by
  rw [State.arbiter, (adoptTripped_output p x s).arbiters]
  exact adoptResolved_topInject p x s

theorem adoptSourced_baseOf :
    (adoptSourced p x s).baseOf p = (s.baseOf p).adopt x.set.record.enabled := by
  rw [State.baseOf, adoptSourced_base]
  exact rd_wr_self _ _ _

/-- Whether the adopted set has a VALID meter. -/
theorem valid_iff :
    (adoptBound p x s).validEstimates p ≠ [] ↔
      ∃ m, x.set.record.binds m = true ∧ ((adoptTripped p x s).meter m).state = .valid := by
  have hmeter (m : Fin 8) : (adoptTripped p x s).meter m = (adoptBound p x s).meter m := by
    rw [State.meter, (adoptTripped_output p x s).meters, adoptResolved_meters]
  have hrec : (adoptBound p x s).record p = x.set.record :=
    congrArg PortalSet.record (adoptBound_set p x s)
  rw [validEstimates_ne, hrec]
  simp only [hmeter]

variable {p x s}

/-- A portal that stays RUNNING keeps its source through its evaluation. -/
theorem adoptTripped_eval_of_running (hb : s.baseOf p = .running) (he : x.set.record.enabled = true) :
    ((adoptTripped p x s).eval p).source = ((adoptSourced p x s).eval p).source ∧
      ((adoptTripped p x s).eval p).holdSince = ((adoptSourced p x s).eval p).holdSince := by
  obtain ⟨since, reported, h⟩ := adoptTripped_eval p x s
  have hrun : startRunning p (adoptSourced p x s) = adoptSourced p x s := by
    refine startRunning_of_not fun hs => ?_
    rw [adoptSourced_baseOf, hb, he] at hs
    cases hs.1
  rw [h, State.formed, hrun]
  exact ⟨rfl, rfl⟩

/-- A portal that enters STARTING or UNCONFIGURED has no source before its evaluation. -/
theorem adoptSourced_eval_of_stopped
    (hb : (s.baseOf p).adopt x.set.record.enabled ≠ s.baseOf p)
    (hr : (s.baseOf p).adopt x.set.record.enabled ≠ .running) :
    (adoptSourced p x s).eval p = ((s.eval p).rebound (s.record p) x.set.record).stopped := by
  rw [adoptSourced_eval, if_pos ⟨hb, hr⟩, Evaluator.heldUntil]
  exact if_neg (by simp [Evaluator.stopped])

/-- A portal that leaves UNCONFIGURED (R2, R27). -/
theorem adoptTripped_of_enabled (hb : s.baseOf p = .unconfigured) (he : x.set.record.enabled = true) :
    ((s.arbiter p).topInject = none → ((adoptTripped p x s).eval p).source = .none ∧
        (adoptTripped p x s).baseOf p = .starting) ∧
      ((s.arbiter p).topInject ≠ none → ((adoptTripped p x s).eval p).source = .lost ∧
        (adoptTripped p x s).baseOf p = .running) := by
  have hadopt : (s.baseOf p).adopt x.set.record.enabled = .starting := by
    rw [hb, he]
    rfl
  have hstop := adoptSourced_eval_of_stopped (p := p) (x := x) (s := s)
    (by rw [hadopt, hb]; decide) (by rw [hadopt]; decide)
  have hbase : (adoptSourced p x s).baseOf p = .starting := (adoptSourced_baseOf p x s).trans hadopt
  have hstatus : (adoptSourced p x s).statusOf p =
      if (s.arbiter p).topInject.isSome then .injected else .none := by
    rw [State.statusOf, hstop, State.arbiter, adoptSourced_arbiters]
    rfl
  obtain ⟨since, reported, h⟩ := adoptTripped_eval p x s
  rw [(adoptTripped_source p x s).2, h, State.formed]
  constructor
  · intro hi
    rw [hi] at hstatus
    rw [startRunning_of_not (by rw [hstatus]; rintro ⟨-, h⟩; cases h), hstop]
    exact ⟨rfl, hbase⟩
  · intro hi
    rw [if_pos (Option.isSome_iff_ne_none.mpr hi)] at hstatus
    rw [startRunning_of_starts ⟨hbase, by rw [hstatus]; rfl⟩, hstop]
    simp [State.eval, State.baseOf, Evaluator.stopped]

/-- A portal that becomes UNCONFIGURED (R2, R30, R31). -/
theorem adoptTripped_of_disabled (hb : s.baseOf p ≠ .unconfigured) (he : x.set.record.enabled = false) :
    ((adoptTripped p x s).eval p).source = .none ∧ ((adoptTripped p x s).eval p).holdSince = none ∧
      ((s.arbiter p).topInject = none →
        ((adoptTripped p x s).eval p).status = .none ∧ ((adoptTripped p x s).eval p).demand = 0) := by
  have hadopt : (s.baseOf p).adopt x.set.record.enabled = .unconfigured := by
    rw [he]
    rfl
  have hstop := adoptSourced_eval_of_stopped (p := p) (x := x) (s := s)
    (by rw [hadopt]; exact hb.symm) (by rw [hadopt]; decide)
  have hrun : startRunning p (adoptSourced p x s) = adoptSourced p x s := by
    refine startRunning_of_not fun hs => ?_
    rw [adoptSourced_baseOf, hadopt] at hs
    cases hs.1
  obtain ⟨since, reported, h⟩ := adoptTripped_eval p x s
  rw [h, State.formed, hrun, hstop]
  refine ⟨rfl, rfl, fun hi => ?_⟩
  have hstatus : (adoptSourced p x s).statusOf p = .none := by
    rw [State.statusOf, hstop, State.arbiter, adoptSourced_arbiters]
    exact if_neg (by simp [hi])
  rw [hstatus]
  exact ⟨rfl, rfl⟩

end Source

end Sys2Proof.Machine
end

section
namespace Sys2Proof.Machine

/-! ### The one selection of an adoption (R58) -/

/-- The last element of a range that meets a test. -/
theorem find_range_reverse {q : Nat → Bool} {n i : Nat} (hi : i < n) (hq : q i = true)
    (hlast : ∀ j, j < n → i < j → q j = false) : (List.range n).reverse.find? q = some i := by
  induction n with
  | zero => omega
  | succ n ih =>
    rw [List.range_succ, List.reverse_append, List.reverse_singleton, List.singleton_append, List.find?_cons]
    rcases Nat.lt_succ_iff_lt_or_eq.mp hi with hlt | rfl
    · rw [hlast n (by omega) hlt]
      exact ih hlt fun j hj => hlast j (by omega)
    · rw [hq]

/-- The initial stage is the highest one above 0 that the demand reaches (R52). -/
theorem initialStage_of_highest {x : PortalSet} {d i : Nat} (hi : i < x.stageCount) (hpos : 1 ≤ i)
    (hr : ∃ r ∈ (x.row i).rise, r ≤ d)
    (hlast : ∀ j, j < x.stageCount → i < j → ¬ ∃ r ∈ (x.row j).rise, r ≤ d) : x.initialStage d = i := by
  unfold PortalSet.initialStage PortalSet.risen
  rw [find_range_reverse hi]
  · rfl
  · simpa [Option.any_eq_true, show 0 < i from hpos] using hr
  · intro j hj hij
    have hn := hlast j hj hij
    simp only [Bool.and_eq_false_iff, decide_eq_false_iff_not]
    refine Or.inr (Bool.eq_false_iff.mpr fun h => hn ?_)
    simpa [Option.any_eq_true] using h

theorem initialStage_of_none {x : PortalSet} {d : Nat}
    (h : ∀ i, i < x.stageCount → 1 ≤ i → ¬ ∃ r ∈ (x.row i).rise, r ≤ d) : x.initialStage d = 0 := by
  unfold PortalSet.initialStage PortalSet.risen
  rw [List.find?_eq_none.mpr]
  · rfl
  · intro i hi hq
    rw [Bool.and_eq_true, decide_eq_true_eq] at hq
    refine h i (List.mem_range.mp (List.mem_reverse.mp hi)) hq.1 ?_
    simpa [Option.any_eq_true] using hq.2

/-- A Stage Selector that has entered a stage. -/
def PortalSet.entered (x : PortalSet) (following : Bool) (i : Nat) (demand : Option Nat) (now : Nat) :
    Selector :=
  { following := following, automatic := i, enteredAt := now / 100, demandInUse := demand
    dwell := some (now + (x.row i).dwell * 1000) }

theorem adoptSelection_selector (p : Fin 4) (s : State) :
    (adoptSelection p s).selector p =
      if s.baseOf p = .running ∧ (s.eval p).status ≠ .lost then
        (s.set p).entered true ((s.set p).initialStage (s.eval p).demand) (some (s.eval p).demand) s.now
      else (s.set p).entered false (s.set p).top none s.now := by
  have stage (following : Bool) (i : Nat) (demand : Option Nat) :
      (setStage p i (follow p following demand s)).selector p =
        (s.set p).entered following i demand s.now := by
    simp [setStage, follow, State.selector, PortalSet.entered, State.tenths, State.set]
  unfold adoptSelection
  dsimp only
  split
  · exact stage _ _ _
  · exact stage _ _ _

theorem adoptTripped_selector (p : Fin 4) (x : PendingSet) (s : State) :
    (adoptTripped p x s).selector p =
      if (adoptTripped p x s).baseOf p = .running ∧ ((adoptTripped p x s).eval p).status ≠ .lost then
        x.set.entered true (x.set.initialStage ((adoptTripped p x s).eval p).demand)
          (some ((adoptTripped p x s).eval p).demand) s.now
      else x.set.entered false x.set.top none s.now := by
  have frozen (u : State) : (rewriteFreezes p u).selectors = u.selectors := rfl
  have resolved (u : State) : (resolveStage p u).selectors = u.selectors := by
    unfold resolveStage
    dsimp only
    split <;> rfl
  have hbase : (adoptTripped p x s).baseOf p = (adoptFormed p x s).baseOf p := by
    rw [State.baseOf, (adoptTripped_output p x s).base, (adoptResolved_source p x s).2]
  have hnow : (adoptFormed p x s).now = s.now := by
    obtain ⟨e, he⟩ := adoptSourced_rest p x s
    obtain ⟨⟨⟨hn, -⟩, -⟩, -⟩ := evaluateOnly_same p (adoptSourced p x s)
    rw [adoptFormed, hn, he]
    exact (adoptBound_rest p x s).now
  rw [State.selector, (adoptTripped_output p x s).selectors, adoptResolved, resolved, frozen]
  have h := adoptSelection_selector p (adoptFormed p x s)
  rw [State.selector, adoptFormed_set, hnow, ← (adoptTripped_source p x s).1, ← hbase] at h
  exact h

/-! ### The Trip Unit at an adoption (R118) -/

/-- Before the Trip Unit acts, an adoption reports the line condition to it, and no more. -/
theorem adoptLighted_tripUnit (p : Fin 4) (x : PendingSet) (s : State) :
    ∃ down, (adoptLighted p x s).tripUnit p = { s.tripUnit p with lineDown := down } := by
  have test (u : State) (h : ∃ d, u.tripUnit p = { s.tripUnit p with lineDown := d }) :
      ∃ d, (testLineOnly p u).tripUnit p = { s.tripUnit p with lineDown := d } := by
    obtain ⟨d, hd⟩ := h
    have set (v : State) (b : Bool) (hv : v.tripUnit p = u.tripUnit p) :
        (v.setTrip p { v.tripUnit p with lineDown := b }).tripUnit p =
          { s.tripUnit p with lineDown := b } := by
      rw [State.tripUnit, State.setTrip_trips, rd_wr_self, hv, hd]
    unfold testLineOnly
    dsimp only
    split
    · exact ⟨d, hd⟩
    · exact ⟨_, set _ _ rfl⟩
  exact adoptLit_keeps (C := atPortal p)
    (P := fun u => ∃ d, u.tripUnit p = { s.tripUnit p with lineDown := d })
    { place := fun _ h => h, scope := fun _ _ _ h => circuit_portal h
      zone := fun _ _ _ h => h, channel := fun _ _ _ _ h => h, enter := fun _ _ _ _ h => h
      post := fun _ _ _ _ h => h, selector := fun _ _ h => h, arbiter := fun _ _ _ h => h
      eval := fun _ _ h => h, base := fun _ _ h => h, meter := fun _ _ _ _ h => h
      freezes := fun _ h => h, test := test
      leave := fun _ _ _ _ h => h, join := fun _ _ _ _ h => h }
    x.set s (fun _ hk => circuit_portal hk) ⟨_, rfl⟩

/-- A Trip Unit under a record whose polarity may have changed (R118). -/
def TripUnit.reread (u : TripUnit) (changed level : Bool) (now : Nat) : TripUnit :=
  if changed = true ∧ level ≠ u.fireLevel then u.change level now else u

/-- The Trip Unit's own cases at an adoption: an UNCONFIGURED portal's latches are cleared, and on another
FIRE is latched as R113 says. -/
theorem adoptTrip_tripUnit (p : Fin 4) (old : PortalRecord) (s : State) :
    let r := (s.tripUnit p).reread (old.activeLow != (s.record p).activeLow) (s.fireRead p) s.now
    let w := (adoptTrip p old s).tripUnit p
    (w.debounced = r.debounced ∧ w.fireLevel = r.fireLevel ∧ w.debounce = r.debounce) ∧
    (s.baseOf p = .unconfigured → w.fireLatch = none ∧ w.orderLatch = none) ∧
    (s.baseOf p ≠ .unconfigured → w.orderLatch = r.orderLatch ∧
      w.fireLatch = if r.fireLatch = none ∧ r.debounced = true ∧ (s.record p).fireArmed = true then
        some s.tenths else r.fireLatch) := by
  intro r w
  have hread : ∃ u : State, (if old.activeLow ≠ (s.record p).activeLow ∧
        s.fireRead p ≠ (s.tripUnit p).fireLevel then
        s.setTrip p ((s.tripUnit p).change (s.fireRead p) s.now) else s) = u ∧
      u.tripUnit p = r ∧ u.baseOf p = s.baseOf p ∧ u.record p = s.record p ∧ u.now = s.now := by
    refine ⟨_, rfl, ?_⟩
    simp only [r, TripUnit.reread, bne_iff_ne, ne_eq]
    split
    · exact ⟨rd_wr_self _ _ _, rfl, rfl, rfl⟩
    · exact ⟨rfl, rfl, rfl, rfl⟩
  obtain ⟨u, hu, hr, hb, hrec, hn⟩ := hread
  have hw : w = if s.baseOf p = .unconfigured then { r with fireLatch := none, orderLatch := none }
      else (latchFire p u).tripUnit p := by
    simp only [w, adoptTrip, hu]
    split
    · rw [State.tripUnit, State.setTrip_trips, rd_wr_self, hr]
    · rfl
  have hlatch (hne : s.baseOf p ≠ .unconfigured) : (latchFire p u).tripUnit p =
      if r.fireLatch = none ∧ r.debounced = true ∧ (s.record p).fireArmed = true then
        { r with fireLatch := some s.tenths } else r := by
    have hbne : (s.baseOf p != .unconfigured) = true := bne_iff_ne.mpr hne
    have hcond : u.fireLatches p = true ↔
        r.fireLatch = none ∧ r.debounced = true ∧ (s.record p).fireArmed = true := by
      rw [State.fireLatches, hr, hrec, hb, hbne]
      simp only [Bool.and_true, Bool.and_eq_true, Option.isNone_iff_eq_none]
      exact And.comm
    unfold latchFire
    by_cases h : u.fireLatches p = true
    · rw [if_pos h, if_pos (hcond.mp h), State.tripUnit, State.setTrip_trips, rd_wr_self, hr, State.tenths,
        hn]
      rfl
    · rw [if_neg h, if_neg (hcond.not.mp h), hr]
  by_cases hne : s.baseOf p = .unconfigured
  · rw [hw, if_pos hne]
    exact ⟨⟨rfl, rfl, rfl⟩, fun _ => ⟨rfl, rfl⟩, fun h => absurd hne h⟩
  · rw [hw, if_neg hne, hlatch hne]
    split
    · exact ⟨⟨rfl, rfl, rfl⟩, fun h => absurd h hne, fun _ => ⟨rfl, rfl⟩⟩
    · exact ⟨⟨rfl, rfl, rfl⟩, fun h => absurd h hne, fun _ => ⟨rfl, rfl⟩⟩

/-- A Trip Unit under a changed polarity: the level that is read anew, and the debounce. -/
theorem reread_spec (u : TripUnit) (changed level : Bool) (now : Nat) :
    let r := u.reread changed level now
    (r.debounced = u.debounced ∧ r.fireLatch = u.fireLatch ∧ r.orderLatch = u.orderLatch ∧
      r.lineDown = u.lineDown) ∧
    (changed = false → r.fireLevel = u.fireLevel ∧ r.debounce = u.debounce) ∧
    (changed = true → level = u.fireLevel → r.fireLevel = u.fireLevel ∧ r.debounce = u.debounce) ∧
    (changed = true → level ≠ u.fireLevel → r.fireLevel = level ∧
      r.debounce = if level = u.debounced then none else some (now + 200)) := by
  intro r
  by_cases h : changed = true ∧ level ≠ u.fireLevel
  · have hr : r = u.change level now := if_pos h
    rw [hr]
    exact ⟨⟨rfl, rfl, rfl, rfl⟩, fun hc => absurd (hc.symm.trans h.1) Bool.false_ne_true,
      fun _ hl => absurd hl h.2, fun _ _ => ⟨rfl, rfl⟩⟩
  · have hr : r = u := if_neg h
    rw [hr]
    exact ⟨⟨rfl, rfl, rfl, rfl⟩, fun _ => ⟨rfl, rfl⟩, fun _ _ => ⟨rfl, rfl⟩,
      fun hc hl => absurd ⟨hc, hl⟩ h⟩

/-- Before the recomputation of an adoption, the trips of the other portals stand and those of its own are
due. -/
theorem adoptLighted_tripsDue (p : Fin 4) (x : PendingSet) {s : State} (hs : TripsWf s) :
    TripsDue p (adoptLighted p x s) :=
  adoptLit_keeps (TripsDue.adoption p) x.set s (fun _ hk => circuit_portal hk)
    (activate_tripsDue x.set (hs.due p))

theorem adoptTripped_tripUnit (p : Fin 4) (x : PendingSet) {s : State} (hs : TripsWf s) :
    let a := adoptTrip p (s.record p) (adoptLighted p x s)
    (adoptTripped p x s).tripUnit p = (a.tripUnit p).recomputed (a.sourcesOf p) a.tenths := by
  intro a
  obtain ⟨-, -, ho⟩ := adoptTrip_tripsDue (s.record p) (adoptLighted_tripsDue p x hs)
  rw [State.tripUnit, adoptTripped, recompute_trips p a ho, rd_wr_self]

theorem adoptLighted_reads (p : Fin 4) (x : PendingSet) (s : State) :
    (adoptLighted p x s).now = s.now ∧ (adoptLighted p x s).firePins = s.firePins ∧
      (adoptLighted p x s).set p = x.set := by
  have hout := adoptLighted_output p x s
  have hday := adoptResolved_daylight p x s
  refine ⟨hout.now.trans hday.now, hout.firePins.trans hday.firePins, ?_⟩
  rw [State.set, hout.active]
  exact adoptResolved_sets p x s

/-- The Trip Unit's cases at an adoption, in a state whose trips are well-formed (R118). -/
theorem adoptTripped_trips (p : Fin 4) (x : PendingSet) {s : State} (hs : TripsWf s) :
    let old := s.record p
    let new := x.set.record
    let u := s.tripUnit p
    let v := (adoptTripped p x s).tripUnit p
    let level := if new.activeLow then !rd s.firePins p else rd s.firePins p
    v.debounced = u.debounced ∧
    (old.activeLow = new.activeLow → v.fireLevel = u.fireLevel ∧ v.debounce = u.debounce) ∧
    (old.activeLow ≠ new.activeLow → level = u.fireLevel →
      v.fireLevel = u.fireLevel ∧ v.debounce = u.debounce) ∧
    (old.activeLow ≠ new.activeLow → level ≠ u.fireLevel →
      v.fireLevel = level ∧
        v.debounce = if level = u.debounced then none else some (s.now + 200)) ∧
    (new.enabled = false →
      v.fireLatch = none ∧ v.orderLatch = none ∧ v.overlay = false ∧
        v.sources = { fire := false, line := false, order := false }) ∧
    (new.enabled = true →
      v.orderLatch = u.orderLatch ∧
      v.fireLatch =
        (if u.fireLatch = none ∧ u.debounced = true ∧ new.fireArmed = true then some s.tenths
          else u.fireLatch) ∧
      v.sources =
        { fire := v.fireLatch.isSome, order := v.orderLatch.isSome
          line := new.lineArmed && v.lineDown } ∧
      (v.overlay = true ↔
        v.sources.fire = true ∨ v.sources.line = true ∨ v.sources.order = true)) := by
  intro old new u v level
  obtain ⟨down, hlit⟩ := adoptLighted_tripUnit p x s
  obtain ⟨hnow, hpins, hset⟩ := adoptLighted_reads p x s
  have hrec : (adoptLighted p x s).record p = new := congrArg PortalSet.record hset
  have hread : (adoptLighted p x s).fireRead p = level := by
    rw [State.fireRead, hpins, hrec]
    simp only [level, new]
    cases x.set.record.activeLow <;> simp
  obtain ⟨⟨h1, h2, h3⟩, hun, hconf⟩ := adoptTrip_tripUnit p old (adoptLighted p x s)
  obtain ⟨-, hbase, -⟩ := adoptTrip_tripsDue old (adoptLighted_tripsDue p x hs)
  obtain ⟨-, hlbase, -⟩ := adoptLighted_tripsDue p x hs
  have hv : v = ((adoptTrip p old (adoptLighted p x s)).tripUnit p).recomputed
      ((adoptTrip p old (adoptLighted p x s)).sourcesOf p) _ := adoptTripped_tripUnit p x hs
  have harec : (adoptTrip p old (adoptLighted p x s)).record p = new := by
    have hout := adoptTrip_keeps (SameButOutput.trips p (adoptResolved p x s)) old _
      (adoptLighted_output p x s)
    rw [State.record, hout.active]
    exact congrArg PortalSet.record (adoptResolved_sets p x s)
  rw [hread, hrec, hnow, hlit] at h1 h2 h3 hconf
  rw [State.tenths, hnow] at hconf
  rw [hrec] at hlbase
  rw [harec] at hbase
  generalize adoptTrip p old (adoptLighted p x s) = a at hv h1 h2 h3 hun hconf hbase harec
  obtain ⟨⟨hd, hf, ho, -⟩, hsame, hequal, hchange⟩ :=
    reread_spec { u with lineDown := down } (old.activeLow != new.activeLow) level s.now
  generalize TripUnit.reread { u with lineDown := down } (old.activeLow != new.activeLow) level s.now = r
    at h1 h2 h3 hconf hd hf ho hsame hequal hchange
  have hchanged : (old.activeLow != new.activeLow) = true ↔ old.activeLow ≠ new.activeLow := bne_iff_ne
  have hkept : (old.activeLow != new.activeLow) = false ↔ old.activeLow = new.activeLow := bne_eq_false_iff_eq
  have hover : v.overlay = (v.sources != TripSet.empty) := by rw [hv]; rfl
  have hvd : v.debounced = r.debounced := by rw [hv]; exact h1
  have hvl : v.fireLevel = r.fireLevel := by rw [hv]; exact h2
  have hvb : v.debounce = r.debounce := by rw [hv]; exact h3
  have hvf : v.fireLatch = (a.tripUnit p).fireLatch := by rw [hv]; rfl
  have hvo : v.orderLatch = (a.tripUnit p).orderLatch := by rw [hv]; rfl
  have hsrc : v.sources =
      { fire := v.fireLatch.isSome, order := v.orderLatch.isSome
        line := new.lineArmed && v.lineDown && a.baseOf p != .unconfigured } := by
    rw [hv]
    simp only [TripUnit.recomputed, State.sourcesOf, State.linePresent, harec]
  rw [hvd, hvl, hvb]
  refine ⟨hd, fun h => hsame (hkept.mpr h), fun h => hequal (hchanged.mpr h),
    fun h => hchange (hchanged.mpr h), fun he => ?_, fun he => ?_⟩
  · obtain ⟨hfire, horder⟩ := hun (hlbase.mpr he)
    have hnone : v.sources = TripSet.empty := by
      rw [hsrc, hvf, hvo, hfire, horder, hbase.mpr he]
      simp [TripSet.empty]
    refine ⟨hvf.trans hfire, hvo.trans horder, ?_, hnone⟩
    rw [hover, hnone]
    rfl
  · have hne : (adoptLighted p x s).baseOf p ≠ .unconfigured := fun h =>
      Bool.false_ne_true ((hlbase.mp h).symm.trans he)
    have hane : (a.baseOf p != .unconfigured) = true := bne_iff_ne.mpr fun h =>
      Bool.false_ne_true ((hbase.mp h).symm.trans he)
    obtain ⟨horder, hfire⟩ := hconf hne
    rw [hd, hf] at hfire
    refine ⟨(hvo.trans horder).trans ho, hvf.trans hfire, by rw [hsrc, hane, Bool.and_true], ?_⟩
    rw [hover]
    obtain ⟨f, l, o⟩ := v.sources
    cases f <;> cases l <;> cases o <;> decide

end Sys2Proof.Machine
end

section
namespace Sys2Proof.Machine

/-! ### The rebinding adoption, block by block (O24) -/

/-- The deadline that a meter which stays bound stands under: that of its last reading under the new
Tstale, or the one it has. -/
theorem rebind_deadline {y : Meter} (h : y.state = .valid) (t : Nat) {deadline : Option Nat}
    (hnone : y.ring.getLast? = none → deadline = y.staleDeadline)
    (hsome : ∀ r, y.ring.getLast? = some r → deadline = some (r.arrival + 10 * t)) :
    (y.rebind t).staleDeadline = deadline := by
  unfold Meter.rebind
  rw [h]
  cases hr : y.ring.getLast? with
  | none => exact (hnone hr).symm
  | some r => exact (hsome r hr).symm

/-- What is told of a meter, by the deadline that it stands under. -/
theorem told_eq (y : Meter) (p : Fin 4) (old new : PortalRecord) (m : Fin 8) (tenths : Nat)
    {deadline : Option Nat} (hnone : y.ring.getLast? = none → deadline = y.staleDeadline)
    (hsome : ∀ r, y.ring.getLast? = some r → deadline = some (r.arrival + 10 * new.tStale)) :
    (if (new.binds m && !old.binds m && y.state != .starting) = true then
        [.meterState p m .bound y.state .starting]
      else if (!new.binds m && old.binds m && y.state != .unused) = true then
        [.meterState p m .unbound y.state .unused]
      else if (new.binds m && old.binds m && y.state == .valid &&
          deadline.any fun d => decide (d ≤ tenths)) = true then
        [.meterState p m .timeout .valid .stale]
      else []) = y.told p old new m tenths := by
  unfold Meter.told
  by_cases hv : y.state = .valid
  · rw [rebind_deadline hv _ hnone hsome]
  · have hne : (y.state == .valid) = false := beq_eq_false_iff_ne.mpr hv
    simp only [hne, Bool.and_false, Bool.false_and]

/-- What a seat is told of an adoption: the meters, and then nothing more of meters. -/
theorem adopt_told (p : Fin 4) (x : PendingSet) (s : State) (seat : Seat) :
    ∃ rest : List Event,
      (adopt p x s).queue seat =
        ((allMeters.flatMap fun m => (s.meter m).told p (s.record p) x.set.record m s.tenths) ++ rest).foldl
          (fun q e => q.place e s.uptime) (s.queue seat) ∧
      ∀ e ∈ rest, ∀ m c a b, e ≠ .meterState p m c a b := by
  have source (e : Event) (h : StageOrSource p e) : ∀ m c a b, e ≠ .meterState p m c a b := by
    rintro m c a b rfl
    rcases h with ⟨_, _, _, h⟩ | ⟨_, h⟩ <;> cases h
  have release (e : Event) (h : ReleaseEvent p e) : ∀ m c a b, e ≠ .meterState p m c a b := by
    rintro m c a b rfl
    obtain ⟨_, h⟩ := h
    cases h
  have closing (e : Event) (h : ClosingEvent p e) : ∀ m c a b, e ≠ .meterState p m c a b := by
    rintro m c a b rfl
    rcases h with ⟨_, h⟩ | (⟨_, _, h⟩ | h) | ⟨_, h⟩ <;> cases h
  obtain ⟨-, rest, hrest, hq⟩ := ((adoptResolved_posts p x s seat).mono source).trans
    (((adoptJoined_posts p x s seat).mono release).trans ((adopt_closing p x s seat).mono closing))
  have hup : (adoptBound p x s).uptime = s.uptime := uptime_of_now (adoptBound_rest p x s).now
  exact ⟨rest, by rw [hq, adoptBound_queue, hup, List.foldl_append], hrest⟩

/-- The source of a portal that stays RUNNING (R27, R28). -/
theorem adoptTripped_of_running {p : Fin 4} {x : PendingSet} {s : State} (hb : s.baseOf p = .running)
    (he : x.set.record.enabled = true) :
    let tHold := x.set.record.tHold
    let lost := (adoptBound p x s).validEstimates p = []
    let e := s.eval p
    let f := (adoptTripped p x s).eval p
    (e.source = .live → ¬ lost → f.source = .live) ∧
      (e.source = .live → lost → 0 < tHold → f.source = .hold ∧ f.holdSince = some s.now) ∧
      (e.source = .live → lost → tHold = 0 → f.source = .lost) ∧
      (∀ since ∈ e.holdSince, e.source = .hold → s.now < since + tHold * 1000 →
        f.source = .hold ∧ f.holdSince = some since) ∧
      (∀ since ∈ e.holdSince, e.source = .hold → since + tHold * 1000 ≤ s.now →
        f.source = .lost ∧ f.holdSince = none) ∧
      (e.source = .lost → f.source = .lost) := by
  intro tHold lost e f
  have hadopt : (s.baseOf p).adopt x.set.record.enabled = s.baseOf p := by
    rw [he, hb]
    rfl
  obtain ⟨hs, hd⟩ := rebound_source e (s.record p) x.set.record
  have h := heldUntil_source (e := e.rebound (s.record p) x.set.record) (best := s.bestEstimate p)
    (tHold := tHold) (now := s.now) (lost := lost)
  rw [hs, hd] at h
  obtain ⟨hfs, hfd⟩ := adoptTripped_eval_of_running hb he
  rw [show f.source = _ from hfs, show f.holdSince = _ from hfd, adoptSourced_eval, hadopt,
    if_neg fun h => h.1 rfl]
  exact h

/-- The stage of the one selection, by the status and the demand that the evaluation gives (R52, R58). -/
theorem adoptTripped_stage (p : Fin 4) (x : PendingSet) (s : State) :
    let t := adoptTripped p x s
    let d := (t.eval p).demand
    let reached (i : Nat) : Prop := ∃ r ∈ (x.set.row i).rise, r ≤ d
    (t.baseOf p ≠ .running ∨ (t.eval p).status = .lost →
      t.selector p = x.set.entered false (x.set.stageCount - 1) none s.now) ∧
    (t.baseOf p = .running → (t.eval p).status ≠ .lost →
      (∀ i, i < x.set.stageCount → 1 ≤ i → reached i →
        (∀ j, j < x.set.stageCount → i < j → ¬ reached j) →
        t.selector p = x.set.entered true i (some d) s.now) ∧
      ((∀ i, i < x.set.stageCount → 1 ≤ i → ¬ reached i) →
        t.selector p = x.set.entered true 0 (some d) s.now)) := by
  intro t d reached
  have hsel := adoptTripped_selector p x s
  refine ⟨fun h => ?_, fun hb hl => ⟨fun i hi hpos hr hlast => ?_, fun hnone => ?_⟩⟩
  · rw [hsel, if_neg (by rintro ⟨hb, hl⟩; exact h.elim (absurd hb) hl)]
    rfl
  · rw [hsel, if_pos ⟨hb, hl⟩, initialStage_of_highest hi hpos hr hlast]
  · rw [hsel, if_pos ⟨hb, hl⟩, initialStage_of_none hnone]

/-- Settles O24, block by block. -/
theorem adoptionRebindsSelectsAndActsOnTrips : Obligations.AdoptionRebindsSelectsAndActsOnTrips := by
  intro p x s hs hx hpoint
  refine ⟨beginTransactions (adopt p x s), exec_adoption hx hpoint, ?_⟩
  intro old new valid
  have hr := adopted_report p x s
  have hmeter (m : Fin 8) : (beginTransactions (adopt p x s)).meter m =
      (s.meter m).adopted old new m s.tenths := by
    rw [State.meter, hr.meters]
    exact adoptTripped_meter p x s m
  have heval : (beginTransactions (adopt p x s)).eval p = (adoptTripped p x s).eval p := by
    rw [State.eval, hr.evals]
  have hbase : (beginTransactions (adopt p x s)).baseOf p = (adoptTripped p x s).baseOf p := by
    rw [State.baseOf, hr.base]
  have harb : (beginTransactions (adopt p x s)).arbiter p = (adoptTripped p x s).arbiter p := by
    rw [State.arbiter, hr.arbiters]
  have htrip : (beginTransactions (adopt p x s)).tripUnit p = (adoptTripped p x s).tripUnit p := by
    rw [State.tripUnit, hr.trips]
  have hsel : (beginTransactions (adopt p x s)).selector p = (adoptTripped p x s).selector p := by
    rw [State.selector, hr.selectors]
  have hvalid : valid ↔ ¬ (adoptBound p x s).validEstimates p = [] := by
    refine Iff.trans ?_ (valid_iff p x s).symm
    simp only [valid, new, State.meter, hr.meters]
  refine ⟨fun m => ?_, fun seat => ?_, fun hb he => ?_, fun hb he => ?_, fun hb he => ?_, ?_, ?_, ?_⟩
  · rw [hmeter]
    refine ⟨fun hn ho => ?_, fun hn ho => ?_, adopted_of_kept⟩
    · rw [Meter.adopted, if_pos hn, if_neg (by rw [ho]; exact Bool.false_ne_true)]
      exact ⟨rfl, rfl, rfl, rfl, rfl⟩
    · rw [Meter.adopted, if_neg (by rw [hn]; exact Bool.false_ne_true), if_pos ho]
      exact ⟨rfl, rfl, rfl, rfl, rfl⟩
  · obtain ⟨rest, hq, hrest⟩ := adopt_told p x s seat
    refine ⟨rest, ?_, hrest⟩
    rw [State.queue, beginTransactions_queues]
    refine hq.trans (congrArg (fun l => (l ++ rest).foldl _ _) ?_)
    refine List.flatMap_congr fun m _ => (told_eq _ _ _ _ _ _ ?_ ?_).symm
    · intro h
      rw [h]
    · intro r h
      rw [h]
  · rw [heval, hvalid, not_not]
    exact adoptTripped_of_running hb he
  · rw [harb, adoptTripped_topInject, heval, hbase]
    exact adoptTripped_of_enabled hb he
  · rw [harb, adoptTripped_topInject, heval]
    exact adoptTripped_of_disabled hb he
  · rw [heval, hbase, hsel]
    exact adoptTripped_stage p x s
  · rw [harb]
    obtain ⟨i, hi⟩ := adoptResolved_arbiter p x s
    dsimp only at hi
    rw [State.arbiter, (adoptTripped_output p x s).arbiters, ← State.arbiter, hi]
    rfl
  · rw [htrip]
    exact adoptTripped_trips p x hs

end Sys2Proof.Machine
end

section
namespace Sys2Proof.Machine

/-! ### The circuits of a set -/

theorem allAddrs_nodup : allAddrs.Nodup := by decide

theorem circuits_nodup (x : PortalSet) (p : Fin 4) : (x.circuits p).Nodup := by
  refine List.Nodup.filterMap (fun a b k ha hb => ?_) allAddrs_nodup
  obtain ⟨_, _, rfl⟩ := Option.map_eq_some_iff.mp ha
  obtain ⟨_, _, hk⟩ := Option.map_eq_some_iff.mp hb
  exact (congrArg Circuit.addr hk).symm

theorem find_eq_none {x : PortalSet} {p : Fin 4} {c : Fin 32} :
    x.find p c = none ↔ ∀ k ∈ x.circuits p, k.cfg.channel ≠ c := by
  rw [PortalSet.find, List.find?_eq_none]
  simp

theorem find_of_mem {x : PortalSet} {p : Fin 4} {k : Circuit} (hd : Distinct (x.circuits p))
    (hk : k ∈ x.circuits p) : x.find p k.cfg.channel = some k := by
  cases h : x.find p k.cfg.channel with
  | none => exact absurd rfl (find_eq_none.mp h k hk)
  | some j => exact congrArg some (hd k hk j (mem_of_find h) (channel_of_find h))

/-- The circuits of one set at two addresses name two channels. -/
theorem Distinct.channel_ne {l : List Circuit} (hd : Distinct l) {k j : Circuit} (hk : k ∈ l) (hj : j ∈ l)
    (h : j ≠ k) : j.cfg.channel ≠ k.cfg.channel := fun hc => h (hd k hk j hj hc)

theorem addr_ne {x : PortalSet} {p : Fin 4} {k j : Circuit} (hk : k ∈ x.circuits p)
    (hj : j ∈ x.circuits p) (h : j ≠ k) : j.addr ≠ k.addr := fun ha => h (circuit_eq_of_addr hk hj ha)

/-! ### The leaving pass of R137 -/

/-- Whether two circuits of a channel are the same driver (R13). -/
def SameDriver (k j : Circuit) : Prop := k.addr = j.addr ∧ k.cfg.switched = j.cfg.switched

theorem sameDriver_iff (k j : Circuit) : k.sameDriver j = true ↔ SameDriver k j := by
  simp [Circuit.sameDriver, SameDriver]

/-- Whether a circuit of the old set leaves: its channel is in no circuit of the new set, or in one of
another driver. -/
def Leaves (new : List Circuit) (k : Circuit) : Prop :=
  ∀ j ∈ new, j.cfg.channel = k.cfg.channel → ¬ SameDriver k j

theorem leavePass_of_leaves {x : PortalSet} {k : Circuit} (h : Leaves (x.circuits k.portal) k) (s : State) :
    ∃ replaced, (replaced = true ↔ ∃ j ∈ x.circuits k.portal, j.cfg.channel = k.cfg.channel) ∧
      leavePass x k s = leaveChannel k replaced s := by
  unfold leavePass
  split
  · next hn =>
    refine ⟨false, ⟨fun hf => absurd hf Bool.false_ne_true, fun ⟨j, hj, hc⟩ => ?_⟩, rfl⟩
    exact absurd hc (find_eq_none.mp hn j hj)
  · next j hj =>
    have hs : ¬ k.sameDriver j = true := (sameDriver_iff k j).not.mpr (h j (mem_of_find hj) (channel_of_find hj))
    exact ⟨true, ⟨fun _ => ⟨j, mem_of_find hj, channel_of_find hj⟩, fun _ => rfl⟩, if_neg hs⟩

theorem leavePass_of_stays {x : PortalSet} {k : Circuit} (hd : Distinct (x.circuits k.portal))
    (h : ¬ Leaves (x.circuits k.portal) k) (s : State) : leavePass x k s = s := by
  simp only [Leaves, not_forall, not_not] at h
  obtain ⟨j, hj, hc, hs⟩ := h
  unfold leavePass
  rw [← hc, find_of_mem hd hj]
  exact if_pos ((sameDriver_iff k j).mpr hs)

theorem releaseForAdoption_channels (k : Circuit) (s : State) :
    (releaseForAdoption k s).channels =
      wr s.channels k.cfg.channel { s.channel k.cfg.channel with hand := none } := by
  unfold releaseForAdoption
  dsimp only
  split
  · next h =>
    rw [← h]
    exact (wr_rd_self _ _).symm
  · rfl

theorem releaseForAdoption_lines (k : Circuit) (s : State) : (releaseForAdoption k s).lines = s.lines := by
  unfold releaseForAdoption
  dsimp only
  split <;> rfl

/-- A leaving channel keeps its level and its target, and waits for its farewell (R13, R137). -/
theorem leaveChannel_channels (k : Circuit) (replaced : Bool) (s : State) :
    (leaveChannel k replaced s).channels =
      wr s.channels k.cfg.channel
        { s.channel k.cfg.channel with hand := none, farewell := some (k.portal, k.addr) } := by
  have h := releaseForAdoption_channels k s
  unfold leaveChannel
  dsimp only
  rw [State.setLine_channels, State.setChannel_channels, State.channel, h, wr_wr, rd_wr_self]

theorem leaveChannel_lampLine (k : Circuit) (replaced : Bool) (s : State) :
    (leaveChannel k replaced s).lampLine k.portal =
      (s.lampLine k.portal).leave k.addr k.cfg.channel replaced := by
  have h := releaseForAdoption_lines k s
  unfold leaveChannel
  dsimp only
  rw [State.lampLine, State.setLine_lines, rd_wr_self, State.lampLine, State.setChannel_lines, h]

/-! ### The joining pass of R137 -/

theorem joinPass_of_joins {old : PortalSet} {j : Circuit}
    (h : ∀ k ∈ old.circuits j.portal, k.cfg.channel ≠ j.cfg.channel) (down : Bool) (s : State) :
    joinPass old down j s =
      (s.setChannel j.cfg.channel Channel.joined).setLine j.portal
        (((s.lampLine j.portal).station j.addr j.cfg.channel down).enter j.addr 0 j.cfg.channel) := by
  unfold joinPass
  dsimp only
  rw [find_eq_none.mpr h]
  rfl

section Join

variable {old : PortalSet} {j k : Circuit} (hd : Distinct (old.circuits j.portal))
  (hk : k ∈ old.circuits j.portal) (hc : k.cfg.channel = j.cfg.channel)
include hd hk hc

theorem joinPass_of_replaced (h : ¬ SameDriver k j) (down : Bool) (s : State) :
    joinPass old down j s =
      s.setChannel j.cfg.channel { Channel.joined with farewell := (s.channel j.cfg.channel).farewell } := by
  have hs : j.sameDriver k = false := Bool.eq_false_iff.mpr fun hjk =>
    h (((sameDriver_iff j k).mp hjk).imp Eq.symm Eq.symm)
  unfold joinPass
  dsimp only
  rw [← hc, find_of_mem hd hk]
  dsimp only
  rw [hs]
  rfl

theorem joinPass_of_kept (h : SameDriver k j) (hz : k.cfg.zone = j.cfg.zone) (down : Bool) (s : State) :
    joinPass old down j s = keepChannel j s := by
  have hs : j.sameDriver k = true := (sameDriver_iff j k).mpr (h.imp Eq.symm Eq.symm)
  unfold joinPass
  dsimp only
  rw [← hc, find_of_mem hd hk]
  dsimp only
  rw [hs]
  exact if_pos hz

theorem joinPass_of_moved (h : SameDriver k j) (hz : k.cfg.zone ≠ j.cfg.zone) (down : Bool) (s : State) :
    joinPass old down j s = releaseForAdoption j s := by
  have hs : j.sameDriver k = true := (sameDriver_iff j k).mpr (h.imp Eq.symm Eq.symm)
  unfold joinPass
  dsimp only
  rw [← hc, find_of_mem hd hk]
  dsimp only
  rw [hs]
  exact if_neg hz

end Join

/-- What a circuit of the new set meets in the old one: a channel that joins, or a circuit of it. -/
theorem joins_or_mem (l : List Circuit) (j : Circuit) :
    (∀ k ∈ l, k.cfg.channel ≠ j.cfg.channel) ∨ ∃ k ∈ l, k.cfg.channel = j.cfg.channel := by
  by_cases h : ∃ k ∈ l, k.cfg.channel = j.cfg.channel
  · exact Or.inr h
  · exact Or.inl fun k hk hc => h ⟨k, hk, hc⟩

/-- A kept channel's hand level is raised under its new record, and so is its commanded level unless its
portal is TRIPPED (R13, R106). -/
theorem keepChannel_channels (k : Circuit) (s : State) :
    (keepChannel k s).channels =
      wr s.channels k.cfg.channel { s.channel k.cfg.channel with
        hand := (s.channel k.cfg.channel).hand.map fun y => { y with level := k.cfg.raised y.level }
        level := if s.tripped k.portal then (s.channel k.cfg.channel).level
          else (s.channel k.cfg.channel).level.map k.cfg.raised } := by
  unfold keepChannel
  dsimp only
  split
  · rfl
  · split
    · next hl => rw [hl]; rfl
    · next hl =>
      rw [command_channels, State.setChannel_channels, wr_wr, State.channel, State.setChannel_channels,
        rd_wr_self, hl]
      rfl

end Sys2Proof.Machine
end

section
namespace Sys2Proof.Machine

/-! ### What the channels and the line keep once the new set has joined -/

/-- Kept by the writes of an adoption after its channels have joined: targets and commands of circuits in
`C`, which holds those of portal `p`, the zones and the Trip Unit of the portal, its line condition and
events. -/
structure KeptByOutput (p : Fin 4) (C : Circuit → Prop) (P : State → Prop) : Prop where
  scope : ∀ s, P s → ∀ k ∈ s.circuits p, C k
  zone : ∀ z x s, P s → P (s.setZone p z x)
  aim : ∀ k x s, C k → P s →
    P (s.setChannel k.cfg.channel { s.channel k.cfg.channel with target := x })
  command : ∀ k level s, C k → P s → P (command k level s)
  post : ∀ e s, P s → P (postAll e s)
  trip : ∀ x s, P s → P (s.setTrip p x)
  line : ∀ b s, P s → P (s.setLine p { s.lampLine p with down := b })

/-- A zone that takes the new set plans, or is written. -/
theorem KeptByPlan.adoptZone {P : State → Prop} {p : Fin 4} {z : Fin 5} {C : Circuit → Prop}
    (h : KeptByPlan p z C P) (zone : ∀ y s, P s → P (s.setZone p z y)) (old : PortalSet) (s : State)
    (hs : P s) : P (adoptZone p old z s) := by
  unfold Machine.adoptZone
  dsimp only
  split
  · split
    · split
      · exact zone _ _ hs
      · exact h.plan _ _ hs
    · split
      · exact zone _ _ hs
      · exact h.plan _ _ hs
  · exact zone _ _ hs

section Output

variable {P : State → Prop} {p : Fin 4} {C : Circuit → Prop} (h : KeptByOutput p C P)
include h

theorem KeptByOutput.drive {k : Circuit} (hk : C k) (s : State) (hs : P s) : P (driveSwitched k s) := by
  unfold driveSwitched
  dsimp only
  split
  · exact h.command _ _ _ hk hs
  · exact hs

theorem KeptByOutput.toPlan (z : Fin 5) : KeptByPlan p z C P where
  scope := h.scope
  zone := fun x s => h.zone z (some x) s
  aim := fun k x s hk _ _ => h.aim k x s hk
  give := giveSwitched_of_writes h.scope (fun k x s hk _ => h.aim k x s hk)
    (fun k level s hk _ _ _ _ => h.command k level s hk)

theorem KeptByOutput.settle {k : Circuit} (hk : C k) (s : State) (hs : P s) : P (settlePass k s) := by
  have targeted : P (if k.cfg.zone = none then driveSwitched k (giveTarget k 0 s) else s) := by
    split
    · exact h.drive hk _ (h.aim k _ s hk hs)
    · exact hs
  unfold settlePass
  dsimp only
  split
  · exact h.command _ _ _ hk targeted
  · exact targeted

theorem KeptByOutput.test (s : State) (hs : P s) : P (testLineOnly p s) := by
  unfold testLineOnly
  dsimp only
  split
  · exact hs
  · exact h.trip _ _ (h.post _ _ (h.line _ _ hs))

theorem KeptByOutput.adoptZone (old : PortalSet) (z : Fin 5) (s : State) (hs : P s) :
    P (adoptZone p old z s) :=
  (h.toPlan z).adoptZone (h.zone z) old s hs

theorem KeptByOutput.adoptTrip (old : PortalRecord) (s : State) (hs : P s) : P (adoptTrip p old s) := by
  have reread (c : Prop) [Decidable c] (u : TripUnit) : P (if c then s.setTrip p u else s) := by
    split
    · exact h.trip _ _ hs
    · exact hs
  have latched (u : State) (hu : P u) : P (latchFire p u) := by
    unfold latchFire
    split
    · exact h.trip _ _ hu
    · exact hu
  unfold Machine.adoptTrip
  dsimp only
  split
  · exact h.trip _ _ (reread _ _)
  · exact latched _ (reread _ _)

theorem KeptByOutput.enterTrip (s : State) (hs : P s) : P (enterTrip p s) := by
  have held (z : Fin 5) (u : State) (hu : P u) : P (enterHeld p z u) := by
    unfold enterHeld
    split
    · exact hu
    · exact h.zone _ _ _ hu
  have set (u : TripUnit) : P (s.setTrip p u) := h.trip _ _ hs
  exact forEach_keeps (fun z _ => held z) _
    (forEach_keeps (fun k hk u hu => h.command k _ u (h.scope _ (set _) k hk) hu) _ (set _))

theorem KeptByOutput.leaveFailLevel {k : Circuit} (hk : C k) (s : State) (hs : P s) :
    P (leaveFailLevel k s) := by
  unfold Machine.leaveFailLevel
  split
  · exact h.command _ _ _ hk hs
  · exact h.drive hk _ hs

theorem KeptByOutput.exitTrip (s : State) (hs : P s) : P (exitTrip p s) := by
  have left (z : Fin 5) (u : State) (hu : P u) : P (leaveHeld p z u) := by
    cases hz : u.zone p z with
    | none => rwa [leaveHeld_of_none hz]
    | some zn =>
      rw [leaveHeld_of_some hz]
      exact (h.toPlan z).plan _ _ hu
  have planned (u : State) (hu : P u) : P (forEach allZones (leaveHeld p) u) :=
    forEach_keeps (fun z _ => left z) _ hu
  have channels (u : State) (hu : P u) : P (forEach (u.circuits p) Machine.leaveFailLevel u) :=
    forEach_keeps (fun k hk v hv => h.leaveFailLevel (h.scope u hu k hk) v hv) _ hu
  exact channels _ (planned _ (h.post _ _ (h.trip _ _ hs)))

theorem KeptByOutput.recompute (s : State) (hs : P s) : P (recompute p s) := by
  have joined (new kept : TripSet) (y : TripSource) (u : State) (hu : P u) :
      P (joinIfNew p new kept y u) := by
    unfold joinIfNew
    split
    · unfold joinSource
      dsimp only
      refine h.post _ _ ?_
      split
      · exact h.trip _ _ hu
      · exact h.enterTrip _ (h.trip _ _ hu)
    · exact hu
  have all (new kept : TripSet) (u : State) (hu : P u) : P (joinIfNew p new kept .order
      (joinIfNew p new kept .line (joinIfNew p new kept .fire u))) :=
    joined _ _ _ _ (joined _ _ _ _ (joined _ _ _ _ hu))
  unfold Machine.recompute
  dsimp only
  split
  · exact h.exitTrip _ (all _ _ _ (h.trip _ _ hs))
  · exact all _ _ _ (h.trip _ _ hs)

/-- What holds once the channels of the new set have joined holds of the adoption. -/
theorem KeptByOutput.tripped (x : PendingSet) (s : State) (hset : ∀ k ∈ x.set.circuits p, C k)
    (hs : P (adoptJoined p x s)) : P (adoptTripped p x s) := by
  have settled : P (forEach (x.set.circuits p) settlePass (adoptJoined p x s)) :=
    forEach_keeps (fun k hk u hu => h.settle (hset k hk) u hu) _ hs
  have lighted : P (adoptLighted p x s) := by
    rw [adoptLighted_eq]
    exact forEach_keeps (fun z _ u hu => h.adoptZone _ z u hu) _ (h.test _ settled)
  exact h.recompute _ (h.adoptTrip _ _ lighted)

end Output

/-! ### The channels as they leave and join (R13) -/

/-- The channels of the old set have left. -/
def adoptLeft (p : Fin 4) (x : PendingSet) (s : State) : State :=
  forEach ((s.set p).circuits p) (leavePass x.set) (adoptResolved p x s)

theorem adoptJoined_eq (p : Fin 4) (x : PendingSet) (s : State) :
    adoptJoined p x s = forEach (x.set.circuits p)
      (joinPass (s.set p) ((adoptResolved p x s).lampLine p).down) (adoptLeft p x s) := rfl

section OfNe

variable {k : Circuit} {c : Fin 32} (hc : k.cfg.channel ≠ c) (s : State)
include hc

theorem releaseForAdoption_channel_of_ne : (releaseForAdoption k s).channel c = s.channel c := by
  rw [State.channel, releaseForAdoption_channels, rd_wr_of_ne _ _ hc]

theorem leavePass_channel_of_ne (x : PortalSet) : (leavePass x k s).channel c = s.channel c := by
  have left (b : Bool) : (leaveChannel k b s).channel c = s.channel c := by
    rw [State.channel, leaveChannel_channels, rd_wr_of_ne _ _ hc]
  unfold leavePass
  split
  · exact left _
  · split
    · rfl
    · exact left _

theorem joinPass_channel_of_ne (old : PortalSet) (down : Bool) :
    (joinPass old down k s).channel c = s.channel c := by
  have set (y : Channel) : (s.setChannel k.cfg.channel y).channel c = s.channel c := rd_wr_of_ne _ _ hc
  unfold joinPass
  dsimp only
  split
  · exact set _
  · split
    · exact set _
    · split
      · rw [State.channel, keepChannel_channels, rd_wr_of_ne _ _ hc]
      · exact releaseForAdoption_channel_of_ne hc s

theorem settlePass_channel_of_ne : (settlePass k s).channel c = s.channel c := by
  have targeted : (if k.cfg.zone = none then driveSwitched k (giveTarget k 0 s) else s).channel c =
      s.channel c := by
    split
    · rw [driveSwitched_channel_of_ne hc, giveTarget_channel_of_ne hc]
    · rfl
  unfold settlePass
  dsimp only
  split
  · rw [command_channel_of_ne hc]
    exact targeted
  · exact targeted

end OfNe

section Channels

variable {p : Fin 4} {x : PendingSet} {s : State} (hdold : Distinct ((s.set p).circuits p))
  (hdnew : Distinct (x.set.circuits p))

theorem adoptResolved_channel (c : Fin 32) : (adoptResolved p x s).channel c = s.channel c := by
  rw [State.channel, (adoptResolved_daylight p x s).channels]
  rfl

theorem adoptLeft_channel_of_none {c : Fin 32} (h : ∀ k ∈ (s.set p).circuits p, k.cfg.channel ≠ c) :
    (adoptLeft p x s).channel c = s.channel c :=
  forEach_keeps (P := fun u => u.channel c = s.channel c)
    (fun k hk u hu => (leavePass_channel_of_ne (h k hk) u x.set).trans hu) _ (adoptResolved_channel c)

include hdold in
/-- A channel that leaves keeps its level and its target, and waits for its farewell (R13, R137). -/
theorem adoptLeft_channel_of_leaves {k : Circuit} (hk : k ∈ (s.set p).circuits p)
    (h : Leaves (x.set.circuits p) k) :
    (adoptLeft p x s).channel k.cfg.channel =
      { s.channel k.cfg.channel with hand := none, farewell := some (p, k.addr) } := by
  have hp := circuit_portal hk
  refine forEach_once (f := leavePass x.set)
    (P := fun u => u.channel k.cfg.channel =
      { s.channel k.cfg.channel with hand := none, farewell := some (p, k.addr) })
    (Q := fun u => u.channel k.cfg.channel = s.channel k.cfg.channel)
    (circuits_nodup _ p) hk (fun u hu => ?_)
    (fun j hj hjk u hu => (leavePass_channel_of_ne (hdold.channel_ne hk hj hjk) u _).trans hu)
    (fun j hj hjk u hu => (leavePass_channel_of_ne (hdold.channel_ne hk hj hjk) u _).trans hu)
    _ (adoptResolved_channel _)
  obtain ⟨replaced, -, heq⟩ := leavePass_of_leaves (hp ▸ h) u
  rw [heq, State.channel, leaveChannel_channels, rd_wr_self, hu, hp]

include hdold hdnew in
theorem adoptLeft_channel_of_stays {k : Circuit} (hk : k ∈ (s.set p).circuits p)
    (h : ¬ Leaves (x.set.circuits p) k) :
    (adoptLeft p x s).channel k.cfg.channel = s.channel k.cfg.channel := by
  have hp := circuit_portal hk
  refine forEach_keeps (f := leavePass x.set)
    (P := fun u => u.channel k.cfg.channel = s.channel k.cfg.channel)
    (fun j hj u hu => ?_) _ (adoptResolved_channel _)
  by_cases hjk : j = k
  · rw [hjk, leavePass_of_stays (hp ▸ hdnew) (hp ▸ h)]
    exact hu
  · exact (leavePass_channel_of_ne (hdold.channel_ne hk hj hjk) u _).trans hu

theorem adoptJoined_channel_of_none {c : Fin 32} (h : ∀ j ∈ x.set.circuits p, j.cfg.channel ≠ c) :
    (adoptJoined p x s).channel c = (adoptLeft p x s).channel c :=
  forEach_keeps (P := fun u => u.channel c = (adoptLeft p x s).channel c)
    (fun k hk u hu => (joinPass_channel_of_ne (h k hk) u _ _).trans hu) _ rfl

theorem adoptLeft_rest : SameButChannels (adoptResolved p x s) (adoptLeft p x s) :=
  forEach_channels (leavePass_rest x.set) _

/-- Until the Trip Unit acts on the adoption, its overlay stands. -/
theorem adoptLeft_tripped : (adoptLeft p x s).tripped p = s.tripped p := by
  rw [State.tripped, State.tripUnit, adoptLeft_rest.trips, (adoptResolved_daylight p x s).trips]
  rfl

include hdnew in
/-- What the joining pass makes of a channel of the new set: what its own circuit's pass does, to what the
leaving pass left. -/
theorem adoptJoined_channel {j : Circuit} (hj : j ∈ x.set.circuits p) {P : Channel → Prop}
    (h : ∀ u : State, u.channel j.cfg.channel = (adoptLeft p x s).channel j.cfg.channel →
      u.tripped p = s.tripped p →
      P ((joinPass (s.set p) ((adoptResolved p x s).lampLine p).down j u).channel j.cfg.channel)) :
    P ((adoptJoined p x s).channel j.cfg.channel) := by
  refine forEach_once (P := fun u => P (u.channel j.cfg.channel))
    (Q := fun u => u.channel j.cfg.channel = (adoptLeft p x s).channel j.cfg.channel ∧
      u.tripped p = s.tripped p)
    (circuits_nodup _ p) hj (fun u hu => h u hu.1 hu.2) (fun k hk hkj u hu => ⟨?_, ?_⟩)
    (fun k hk hkj u hu => ?_) (adoptLeft p x s) ⟨rfl, adoptLeft_tripped⟩
  · exact (joinPass_channel_of_ne (hdnew.channel_ne hj hk hkj) u _ _).trans hu.1
  · rw [State.tripped, State.tripUnit, (joinPass_rest _ _ _ _).trips]
    exact hu.2
  · rw [joinPass_channel_of_ne (hdnew.channel_ne hj hk hkj)]
    exact hu

include hdnew in
theorem adoptJoined_channel_of_joins {j : Circuit} (hj : j ∈ x.set.circuits p)
    (h : ∀ k ∈ (s.set p).circuits p, k.cfg.channel ≠ j.cfg.channel) :
    (adoptJoined p x s).channel j.cfg.channel = Channel.joined := by
  have hp := circuit_portal hj
  refine adoptJoined_channel hdnew hj (P := fun y => y = Channel.joined) fun u hu _ => ?_
  rw [joinPass_of_joins (hp ▸ h)]
  exact rd_wr_self _ _ _

include hdnew in
theorem leaves_iff {j k : Circuit} (hj : j ∈ x.set.circuits p) (hc : j.cfg.channel = k.cfg.channel) :
    Leaves (x.set.circuits p) k ↔ ¬ SameDriver k j := by
  constructor
  · exact fun h => h j hj hc
  · intro h i hi hic
    rw [hdnew j hj i hi (hic.trans hc.symm)]
    exact h

section Old

variable {j k : Circuit} (hj : j ∈ x.set.circuits p) (hk : k ∈ (s.set p).circuits p)
  (hc : j.cfg.channel = k.cfg.channel)
include hdold hdnew hj hk hc

theorem adoptJoined_channel_of_replaced (h : ¬ SameDriver k j) :
    (adoptJoined p x s).channel j.cfg.channel = { Channel.joined with farewell := some (p, k.addr) } := by
  have hp := circuit_portal hj
  refine adoptJoined_channel hdnew hj
    (P := fun y => y = { Channel.joined with farewell := some (p, k.addr) }) fun u hu _ => ?_
  have hleft := adoptLeft_channel_of_leaves hdold hk ((leaves_iff hdnew hj hc).mpr h)
  rw [joinPass_of_replaced (hp ▸ hdold) (hp ▸ hk) hc.symm h, State.channel, State.setChannel_channels,
    rd_wr_self, hu, hc, hleft]

theorem adoptJoined_channel_of_kept (h : SameDriver k j) (hz : j.cfg.zone = k.cfg.zone) :
    (adoptJoined p x s).channel j.cfg.channel = { s.channel j.cfg.channel with
      hand := (s.channel j.cfg.channel).hand.map fun y => { y with level := j.cfg.raised y.level }
      level := if s.tripped p then (s.channel j.cfg.channel).level
        else (s.channel j.cfg.channel).level.map j.cfg.raised } := by
  have hp := circuit_portal hj
  have hleft := adoptLeft_channel_of_stays hdold hdnew hk
    fun hl => (leaves_iff hdnew hj hc).mp hl h
  refine adoptJoined_channel hdnew hj (P := fun y => y = _) fun u hu ht => ?_
  rw [joinPass_of_kept (hp ▸ hdold) (hp ▸ hk) hc.symm h hz.symm, State.channel, keepChannel_channels,
    rd_wr_self, hu, hp, ht, hc, hleft]

theorem adoptJoined_channel_of_moved (h : SameDriver k j) (hz : j.cfg.zone ≠ k.cfg.zone) :
    (adoptJoined p x s).channel j.cfg.channel = { s.channel j.cfg.channel with hand := none } := by
  have hp := circuit_portal hj
  have hleft := adoptLeft_channel_of_stays hdold hdnew hk
    fun hl => (leaves_iff hdnew hj hc).mp hl h
  refine adoptJoined_channel hdnew hj (P := fun y => y = _) fun u hu ht => ?_
  rw [joinPass_of_moved (hp ▸ hdold) (hp ▸ hk) hc.symm h hz.symm, State.channel,
    releaseForAdoption_channels, rd_wr_self, hu, hc, hleft]

end Old

end Channels

end Sys2Proof.Machine
end

section
namespace Sys2Proof.Machine

/-! ### Hands, farewells and levels after an adoption (R13, R99) -/

theorem testLineOnly_channels (n : Fin 4) (s : State) : (testLineOnly n s).channels = s.channels := by
  have set (u v : State) (x : TripUnit) (h : u.channels = v.channels) :
      (u.setTrip n x).channels = v.channels := h
  have told (u v : State) (e : Event) (h : u.channels = v.channels) :
      (postAll e u).channels = v.channels := h
  unfold testLineOnly
  dsimp only
  split
  · rfl
  · exact set _ _ _ (told _ _ _ rfl)

/-- A test of the line condition leaves the overlays. -/
theorem testLineOnly_tripped (n p : Fin 4) (s : State) : (testLineOnly n s).tripped p = s.tripped p := by
  have set (u : State) (b : Bool) (h : u.trips = s.trips) :
      (u.setTrip n { u.tripUnit n with lineDown := b }).tripped p = s.tripped p := by
    by_cases hn : n = p
    · subst hn
      rw [State.tripped, State.tripUnit, State.setTrip_trips, rd_wr_self]
      exact congrArg (fun v => (rd v n).overlay) h
    · rw [State.tripped, State.tripUnit, State.setTrip_trips, rd_wr_of_ne _ _ hn, h]
      rfl
  unfold testLineOnly
  dsimp only
  split
  · rfl
  · exact set _ _ rfl

theorem command_channel (k : Circuit) (level : Nat) (s : State) :
    (command k level s).channel k.cfg.channel =
      { s.channel k.cfg.channel with level := some (k.cfg.raised level) } := by
  rw [State.channel, command_channels, rd_wr_self]

theorem command_active (k : Circuit) (level : Nat) (s : State) : (command k level s).active = s.active := by
  have h := congrArg State.active (command_rest k level s)
  exact h

section Final

variable {p : Fin 4} {x : PendingSet} {s : State}

/-- Once the new set has joined, hands and farewells stand. -/
theorem adoptTripped_hand (c : Fin 32) :
    ((adoptTripped p x s).channel c).hand = ((adoptJoined p x s).channel c).hand ∧
      ((adoptTripped p x s).channel c).farewell = ((adoptJoined p x s).channel c).farewell := by
  refine KeptByOutput.tripped (C := fun _ => True)
    (P := fun u => (u.channel c).hand = ((adoptJoined p x s).channel c).hand ∧
      (u.channel c).farewell = ((adoptJoined p x s).channel c).farewell)
    { scope := fun _ _ _ _ => trivial, zone := fun _ _ _ h => h, aim := fun k y u _ h => ?_
      command := fun k level u _ h => ?_, post := fun _ _ h => h, trip := fun _ _ h => h
      line := fun _ _ h => h } x s (fun _ _ => trivial) ⟨rfl, rfl⟩
  · by_cases hc : k.cfg.channel = c
    · subst hc
      rw [State.channel, State.setChannel_channels, rd_wr_self]
      exact h
    · rw [State.channel, State.setChannel_channels, rd_wr_of_ne _ _ hc]
      exact h
  · by_cases hc : k.cfg.channel = c
    · subst hc
      rw [command_channel]
      exact h
    · rw [command_channel_of_ne hc]
      exact h

theorem adoptJoined_rest : SameButChannels (adoptResolved p x s) (adoptJoined p x s) :=
  adoptLeft_rest.trans (forEach_channels (joinPass_rest (s.set p) _) _)

theorem adoptJoined_circuits : (adoptJoined p x s).circuits p = x.set.circuits p := by
  rw [State.circuits, State.set, adoptJoined_rest.output.active]
  exact congrArg (PortalSet.circuits · p) (adoptResolved_sets p x s)

/-- A channel that the new set does not name stands as the leaving pass left it. -/
theorem adoptTripped_channel_of_none {c : Fin 32} (h : ∀ j ∈ x.set.circuits p, j.cfg.channel ≠ c) :
    (adoptTripped p x s).channel c = (adoptLeft p x s).channel c := by
  refine (KeptByOutput.tripped (C := fun k => k ∈ x.set.circuits p)
    (P := fun u => u.circuits p = x.set.circuits p ∧ u.channel c = (adoptLeft p x s).channel c)
    { scope := fun u hu k hk => hu.1 ▸ hk, zone := fun _ _ _ h => h
      aim := fun k y u hk hu => ⟨hu.1, (rd_wr_of_ne _ _ (h k hk)).trans hu.2⟩
      command := fun k level u hk hu => ⟨?_, (command_channel_of_ne (h k hk) _ _).trans hu.2⟩
      post := fun _ _ h => h, trip := fun _ _ h => h
      line := fun _ _ h => h } x s (fun _ hk => hk) ⟨adoptJoined_circuits, adoptJoined_channel_of_none h⟩).2
  rw [State.circuits, State.set, command_active]
  exact hu.1

theorem adoptJoined_tripped : (adoptJoined p x s).tripped p = s.tripped p := by
  rw [State.tripped, State.tripUnit, adoptJoined_rest.trips, (adoptResolved_daylight p x s).trips]
  rfl

/-- The channels of the new set have settled, and the line condition is tested. -/
def adoptTested (p : Fin 4) (x : PendingSet) (s : State) : State :=
  testLineOnly p (forEach (x.set.circuits p) settlePass (adoptJoined p x s))

/-- What the zones keep as they take the set in. -/
theorem adoptLighted_keeps {P : State → Prop} {C : Circuit → Prop} (hplan : ∀ z, KeptByPlan p z C P)
    (hzone : ∀ z y s, P s → P (s.setZone p z y)) (hs : P (adoptTested p x s)) :
    P (adoptLighted p x s) := by
  rw [adoptLighted_eq]
  exact forEach_keeps (fun z _ u hu => (hplan z).adoptZone (hzone z) _ u hu) _ hs

theorem adoptSettled_rest : SameButChannels (adoptResolved p x s)
    (forEach (x.set.circuits p) settlePass (adoptJoined p x s)) :=
  adoptJoined_rest.trans (forEach_channels settlePass_rest _)

theorem adoptTested_output : SameButOutput (adoptResolved p x s) (adoptTested p x s) :=
  adoptSettled_rest.output.trans (testLineOnly_output p _)

theorem adoptTested_circuits : (adoptTested p x s).circuits p = x.set.circuits p := by
  rw [State.circuits, State.set, adoptTested_output.active]
  exact congrArg (PortalSet.circuits · p) (adoptResolved_sets p x s)

theorem adoptTested_tripped : (adoptTested p x s).tripped p = s.tripped p := by
  rw [adoptTested, testLineOnly_tripped, State.tripped, State.tripUnit, adoptSettled_rest.trips,
    (adoptResolved_daylight p x s).trips]
  rfl

/-- What Channel Output makes of a channel of the new set before the zones act: what its own circuit's pass
does to what the joining pass left. -/
theorem adoptTested_channel (hdnew : Distinct (x.set.circuits p)) {j : Circuit}
    (hj : j ∈ x.set.circuits p) {P : Channel → Prop}
    (h : ∀ u : State, u.channel j.cfg.channel = (adoptJoined p x s).channel j.cfg.channel →
      u.tripped p = s.tripped p → P ((settlePass j u).channel j.cfg.channel)) :
    P ((adoptTested p x s).channel j.cfg.channel) := by
  rw [adoptTested, State.channel, testLineOnly_channels]
  refine forEach_once (P := fun u => P (u.channel j.cfg.channel))
    (Q := fun u => u.channel j.cfg.channel = (adoptJoined p x s).channel j.cfg.channel ∧
      u.tripped p = s.tripped p)
    (circuits_nodup _ p) hj (fun u hu => h u hu.1 hu.2) (fun k hk hkj u hu => ⟨?_, ?_⟩)
    (fun k hk hkj u hu => ?_) (adoptJoined p x s) ⟨rfl, adoptJoined_tripped⟩
  · exact (settlePass_channel_of_ne (hdnew.channel_ne hj hk hkj) u).trans hu.1
  · rw [State.tripped, State.tripUnit, (settlePass_rest _ _).trips]
    exact hu.2
  · rw [settlePass_channel_of_ne (hdnew.channel_ne hj hk hkj)]
    exact hu

/-- What the zones keep of a channel of the new set: what a new target keeps, if it is DIMMED, and what its
switched target keeps, if it is SWITCHED. -/
theorem adoptLighted_channel (hdnew : Distinct (x.set.circuits p)) {j : Circuit}
    (hj : j ∈ x.set.circuits p) {P : Channel → Prop}
    (haim : j.cfg.switched = false → ∀ y t, P y → P { y with target := t })
    (hgive : j.cfg.switched = true → ∀ (u : State) (t : Nat), u.tripped p = s.tripped p →
      P (u.channel j.cfg.channel) → P ((driveSwitched j (giveTarget j t u)).channel j.cfg.channel))
    (hs : P ((adoptTested p x s).channel j.cfg.channel)) :
    P ((adoptLighted p x s).channel j.cfg.channel) := by
  have trips (u : State) (k : Circuit) (t : Nat) : (driveSwitched k (giveTarget k t u)).trips = u.trips :=
    driveSwitched_keeps (tripsLight k.portal u.trips) k rfl _
      (giveTarget_keeps (tripsLight k.portal u.trips) k rfl _ _ rfl)
  have active (u : State) (k : Circuit) (t : Nat) :
      (driveSwitched k (giveTarget k t u)).active = u.active := by
    have given : (giveTarget k t u).active = u.active := rfl
    unfold driveSwitched
    dsimp only
    split
    · exact (command_active _ _ _).trans given
    · exact given
  refine (adoptLighted_keeps (C := fun k => k ∈ x.set.circuits p)
    (P := fun u => u.circuits p = x.set.circuits p ∧ u.tripped p = s.tripped p ∧ P (u.channel j.cfg.channel))
    (fun z => { scope := fun u hu k hk => hu.1 ▸ hk, zone := fun _ _ h => h
                aim := fun k y u hk _ hd hu => ⟨hu.1, hu.2.1, ?_⟩, give := fun on u hu => ?_ })
    (fun _ _ _ h => h) ⟨adoptTested_circuits, adoptTested_tripped, hs⟩).2.2
  · by_cases hc : k.cfg.channel = j.cfg.channel
    · obtain rfl := hdnew j hj k hk hc
      rw [State.channel, State.setChannel_channels, rd_wr_self]
      exact haim hd _ _ hu.2.2
    · rw [State.channel, State.setChannel_channels, rd_wr_of_ne _ _ hc]
      exact hu.2.2
  · obtain ⟨hcirc, htrip, hP⟩ := hu
    unfold giveSwitched
    split
    · exact ⟨hcirc, htrip, hP⟩
    · next k hk =>
      obtain ⟨hkc, -, hsw⟩ := switchedOf_spec hk
      have hknew : k ∈ x.set.circuits p := hcirc ▸ hkc
      refine ⟨?_, ?_, ?_⟩
      · rw [State.circuits, State.set, active]
        exact hcirc
      · rw [State.tripped, State.tripUnit, trips]
        exact htrip
      · by_cases hc : k.cfg.channel = j.cfg.channel
        · obtain rfl := hdnew j hj k hknew hc
          exact hgive hsw u _ htrip hP
        · rw [driveSwitched_channel_of_ne hc, giveTarget_channel_of_ne hc]
          exact hP

end Final

/-! ### The levels that Channel Output commands (R7, R13, R99) -/

section Settle

variable {j : Circuit} {s : State}

theorem driveSwitched_of_tripped (h : s.tripped j.portal = true) : driveSwitched j s = s :=
  if_neg fun hd => Bool.false_ne_true (hd.2.2.symm.trans h)

theorem driveSwitched_of_dimmed (h : j.cfg.switched = false) : driveSwitched j s = s :=
  if_neg fun hd => Bool.false_ne_true (h.symm.trans hd.1)

theorem giveTarget_channel (t : Nat) :
    (giveTarget j t s).channel j.cfg.channel =
      { s.channel j.cfg.channel with target := some (j.cfg.raised t) } := rd_wr_self _ _ _

theorem settlePass_level_of_tripped (h : s.tripped j.portal = true) :
    ((settlePass j s).channel j.cfg.channel).level = some (j.cfg.raised j.cfg.failLevel) := by
  unfold settlePass
  dsimp only
  rw [if_pos h, command_channel]

theorem settlePass_level_of_dimmed (h : s.tripped j.portal = false) (hd : j.cfg.switched = false) :
    ((settlePass j s).channel j.cfg.channel).level = (s.channel j.cfg.channel).level := by
  unfold settlePass
  dsimp only
  rw [if_neg (by rw [h]; exact Bool.false_ne_true)]
  split
  · rw [driveSwitched_of_dimmed hd, giveTarget_channel]
  · rfl

/-- A SWITCHED channel's levels are 0 and 1000 alone (R7). -/
theorem raised_of_switched (h : j.cfg.switched = true) (level : Nat) : j.cfg.raised level = level := by
  simp [ChannelRecord.raised, h]

/-- A SWITCHED channel in AUTO of an untripped portal stands at a target that it is given (R99). -/
theorem driveSwitched_at_target (hsw : j.cfg.switched = true) (h : s.tripped j.portal = false)
    (hh : (s.channel j.cfg.channel).hand = none) (t : Nat) :
    ((driveSwitched j (giveTarget j t s)).channel j.cfg.channel).hand = none ∧
      ((driveSwitched j (giveTarget j t s)).channel j.cfg.channel).level =
        ((driveSwitched j (giveTarget j t s)).channel j.cfg.channel).target := by
  have hcond : j.cfg.switched = true ∧ ((giveTarget j t s).channel j.cfg.channel).hand = none ∧
      (giveTarget j t s).tripped j.portal = false := ⟨hsw, by rw [giveTarget_channel]; exact hh, h⟩
  have heq : driveSwitched j (giveTarget j t s) =
      command j (((giveTarget j t s).channel j.cfg.channel).target.getD 0) (giveTarget j t s) := if_pos hcond
  rw [heq, command_channel, giveTarget_channel]
  exact ⟨hh, by simp [raised_of_switched hsw]⟩

end Settle

section Levels

variable {p : Fin 4} {x : PendingSet} {s : State} (hdnew : Distinct (x.set.circuits p)) {j : Circuit}
  (hj : j ∈ x.set.circuits p)
include hdnew hj

/-- An untripped portal commands its DIMMED channels at no level as it adopts. -/
theorem adoptLighted_level_of_dimmed (ht : s.tripped p = false) (hd : j.cfg.switched = false) :
    ((adoptLighted p x s).channel j.cfg.channel).level =
      ((adoptJoined p x s).channel j.cfg.channel).level := by
  have hp := circuit_portal hj
  refine adoptLighted_channel hdnew hj
    (P := fun y => y.level = ((adoptJoined p x s).channel j.cfg.channel).level)
    (fun _ _ _ h => h) (fun hsw => absurd (hd.symm.trans hsw) Bool.false_ne_true) ?_
  refine adoptTested_channel hdnew hj
    (P := fun y => y.level = ((adoptJoined p x s).channel j.cfg.channel).level) fun u hu hut => ?_
  rw [settlePass_level_of_dimmed (hp.symm ▸ hut.trans ht) hd, hu]

/-- A TRIPPED portal commands its channels at their fail levels as it adopts (R13, R99). -/
theorem adoptLighted_level_of_tripped (ht : s.tripped p = true) :
    ((adoptLighted p x s).channel j.cfg.channel).level = some (j.cfg.raised j.cfg.failLevel) := by
  have hp := circuit_portal hj
  refine adoptLighted_channel hdnew hj
    (P := fun y => y.level = some (j.cfg.raised j.cfg.failLevel))
    (fun _ _ _ h => h) (fun _ u t hut h => ?_) ?_
  · have htrip : (giveTarget j t u).tripped j.portal = true := hp.symm ▸ hut.trans ht
    rw [driveSwitched_of_tripped htrip, giveTarget_channel]
    exact h
  · exact adoptTested_channel hdnew hj
      (P := fun y => y.level = some (j.cfg.raised j.cfg.failLevel))
      fun u _ hut => settlePass_level_of_tripped (hp.symm ▸ hut.trans ht)

/-- A SWITCHED channel that stands at its target when it has joined does so once its zone has acted. -/
theorem adoptLighted_at_target (ht : s.tripped p = false) (hsw : j.cfg.switched = true)
    (hh : ((adoptJoined p x s).channel j.cfg.channel).hand = none)
    (hl : ((adoptJoined p x s).channel j.cfg.channel).level =
      ((adoptJoined p x s).channel j.cfg.channel).target) :
    ((adoptLighted p x s).channel j.cfg.channel).level =
      ((adoptLighted p x s).channel j.cfg.channel).target := by
  have hp := circuit_portal hj
  refine (adoptLighted_channel hdnew hj (P := fun y => y.hand = none ∧ y.level = y.target)
    (fun hd => absurd (hd.symm.trans hsw) Bool.false_ne_true)
    (fun _ u t hut h => driveSwitched_at_target hsw (hp.symm ▸ hut.trans ht) h.1 t) ?_).2
  refine adoptTested_channel hdnew hj (P := fun y => y.hand = none ∧ y.level = y.target)
    fun u hu hut => ?_
  have hu' : u.tripped j.portal = false := hp.symm ▸ hut.trans ht
  unfold settlePass
  dsimp only
  rw [if_neg (by rw [hu']; exact Bool.false_ne_true)]
  split
  · exact driveSwitched_at_target hsw hu' (by rw [hu]; exact hh) 0
  · rw [hu]
    exact ⟨hh, hl⟩

end Levels

/-! ### The lighting once the Trip Unit has acted -/

theorem tripped_setTrip (s : State) (p : Fin 4) (x : TripUnit) : (s.setTrip p x).tripped p = x.overlay := by
  rw [State.tripped, State.tripUnit, State.setTrip_trips, rd_wr_self]

theorem adoptTrip_lighting (p : Fin 4) (old : PortalRecord) (s : State) :
    (adoptTrip p old s).lighting = s.lighting ∧ (adoptTrip p old s).tripped p = s.tripped p := by
  have reread (c : Prop) [Decidable c] (level : Bool) :
      (if c then s.setTrip p ((s.tripUnit p).change level s.now) else s).lighting = s.lighting ∧
        (if c then s.setTrip p ((s.tripUnit p).change level s.now) else s).tripped p = s.tripped p := by
    split
    · exact ⟨rfl, tripped_setTrip _ _ _⟩
    · exact ⟨rfl, rfl⟩
  have latches (u : State) (f : Option Nat) (o : Option OrderLatch)
      (h : u.lighting = s.lighting ∧ u.tripped p = s.tripped p) :
      (u.setTrip p { u.tripUnit p with fireLatch := f, orderLatch := o }).lighting = s.lighting ∧
        (u.setTrip p { u.tripUnit p with fireLatch := f, orderLatch := o }).tripped p = s.tripped p :=
    ⟨h.1, (tripped_setTrip _ _ _).trans h.2⟩
  have latched (u : State) (h : u.lighting = s.lighting ∧ u.tripped p = s.tripped p) :
      (latchFire p u).lighting = s.lighting ∧ (latchFire p u).tripped p = s.tripped p := by
    unfold latchFire
    split
    · exact latches u _ _ h
    · exact h
  unfold adoptTrip
  dsimp only
  split
  · exact latches _ _ _ (reread _ _)
  · exact latched _ (reread _ _)

theorem adoptLighted_tripped (p : Fin 4) (x : PendingSet) (s : State) :
    (adoptLighted p x s).tripped p = s.tripped p := by
  obtain ⟨down, h⟩ := adoptLighted_tripUnit p x s
  rw [State.tripped, h]
  rfl

/-- A portal whose overlay stands through an adoption is left as its zones have acted. -/
theorem adoptTripped_lighting_of_same {p : Fin 4} {x : PendingSet} {s : State}
    (h : (adoptTripped p x s).tripped p = s.tripped p) :
    (adoptTripped p x s).lighting = (adoptLighted p x s).lighting := by
  obtain ⟨hlight, htrip⟩ := adoptTrip_lighting p (s.record p) (adoptLighted p x s)
  rw [adoptLighted_tripped] at htrip
  rcases recompute_lighting p (adoptTrip p (s.record p) (adoptLighted p x s)) with ⟨-, hl⟩ | ⟨t, -, hc⟩
  · exact hl.trans hlight
  · rcases hc with ⟨h1, h2, -⟩ | ⟨h1, h2, -⟩
    · exact absurd (h1.symm.trans (htrip.trans (h.symm.trans h2))) Bool.false_ne_true
    · exact absurd (h2.symm.trans (h.trans (htrip.symm.trans h1))) Bool.false_ne_true

theorem adoptTripped_channel_of_same {p : Fin 4} {x : PendingSet} {s : State}
    (h : (adoptTripped p x s).tripped p = s.tripped p) (c : Fin 32) :
    (adoptTripped p x s).channel c = (adoptLighted p x s).channel c := by
  have hl := adoptTripped_lighting_of_same h
  simp only [State.lighting, Prod.mk.injEq] at hl
  rw [State.channel, hl.2.1]

end Sys2Proof.Machine
end

section
namespace Sys2Proof.Machine

/-! ### The seats that an adoption tells of their hand channels (R102) -/

/-- What a seat is told when a channel is released for an adoption. -/
def Channel.released (y : Channel) (seat : Seat) (p : Fin 4) (c : Fin 32) : List Event :=
  if y.hand.any fun h => h.seat == seat then [.handReleased p c .adoption] else []

/-- Chosen elements that tell of at most one event each, as one list. -/
theorem flatMap_filter {α β : Type} (l : List α) (g h : α → Bool) (e : α → β) :
    (l.flatMap fun a => if g a then (if h a then [e a] else []) else []) =
      (l.filter g).filterMap fun a => if h a then some (e a) else none := by
  induction l with
  | nil => rfl
  | cons a rest ih =>
    rw [List.flatMap_cons, ih]
    cases hg : g a
    · rw [List.filter_cons_of_neg (by simp [hg])]
      rfl
    · rw [List.filter_cons_of_pos hg, List.filterMap_cons]
      cases h a <;> rfl

section Queue

variable {p : Fin 4} {x : PendingSet} {s : State} (seat : Seat)

/-- Whether a circuit of the old set leaves, as a test. -/
def goes (new : List Circuit) (k : Circuit) : Bool := !new.any fun j =>
  j.cfg.channel == k.cfg.channel && j.addr == k.addr && j.cfg.switched == k.cfg.switched

/-- Whether a circuit of the new set is moved from another zone, as a test. -/
def moves (old : List Circuit) (j : Circuit) : Bool := old.any fun k =>
  k.cfg.channel == j.cfg.channel && k.addr == j.addr && k.cfg.switched == j.cfg.switched &&
    k.cfg.zone != j.cfg.zone

theorem goes_iff (new : List Circuit) (k : Circuit) : goes new k = true ↔ Leaves new k := by
  simp only [goes, Bool.not_eq_true', Leaves, SameDriver]
  rw [Bool.eq_false_iff, Ne, List.any_eq_true]
  simp only [Bool.and_eq_true, beq_iff_eq, not_exists, not_and]
  exact ⟨fun h j hj hc ha hs => h j hj ⟨hc, ha.symm⟩ hs.symm,
    fun h j hj ⟨hc, ha⟩ hs => h j hj hc ha.symm hs.symm⟩

theorem moves_iff (old : List Circuit) (j : Circuit) :
    moves old j = true ↔
      ∃ k ∈ old, k.cfg.channel = j.cfg.channel ∧ SameDriver k j ∧ k.cfg.zone ≠ j.cfg.zone := by
  simp only [moves, List.any_eq_true, SameDriver, Bool.and_eq_true, beq_iff_eq, bne_iff_ne, and_assoc]

theorem leavePass_queue (hdnew : Distinct (x.set.circuits p)) {k : Circuit} (hp : k.portal = p) (u : State) :
    (leavePass x.set k u).queue seat =
      (if goes (x.set.circuits p) k then (u.channel k.cfg.channel).released seat p k.cfg.channel
        else []).foldl (fun q e => q.place e u.uptime) (u.queue seat) := by
  by_cases h : Leaves (x.set.circuits p) k
  · obtain ⟨b, -, heq⟩ := leavePass_of_leaves (hp ▸ h) u
    rw [if_pos ((goes_iff _ _).mpr h), heq, Channel.released, ← hp]
    exact releaseForAdoption_queue seat k u
  · rw [if_neg ((goes_iff _ _).not.mpr h), leavePass_of_stays (hp ▸ hdnew) (hp ▸ h)]
    rfl

theorem joinPass_queue {old : PortalSet} (hdold : Distinct (old.circuits p)) {j : Circuit}
    (hp : j.portal = p) (down : Bool) (u : State) :
    (joinPass old down j u).queue seat =
      (if moves (old.circuits p) j then (u.channel j.cfg.channel).released seat p j.cfg.channel
        else []).foldl (fun q e => q.place e u.uptime) (u.queue seat) := by
  have quiet (h : ¬ moves (old.circuits p) j = true) {v : State} (hv : v.queues = u.queues) :
      v.queue seat =
        (if moves (old.circuits p) j then (u.channel j.cfg.channel).released seat p j.cfg.channel
          else []).foldl (fun q e => q.place e u.uptime) (u.queue seat) := by
    rw [if_neg h, State.queue, hv]
    rfl
  rcases joins_or_mem (old.circuits p) j with hnone | ⟨k, hk, hc⟩
  · rw [joinPass_of_joins (hp ▸ hnone)]
    refine quiet (fun hm => ?_) rfl
    obtain ⟨k, hk, hkc, -⟩ := (moves_iff _ _).mp hm
    exact hnone k hk hkc
  · have hold : Distinct (old.circuits j.portal) := hp ▸ hdold
    have hkold : k ∈ old.circuits j.portal := hp ▸ hk
    -- a circuit of the old set that moves the channel is this one
    have only (hm : moves (old.circuits p) j = true) : SameDriver k j ∧ k.cfg.zone ≠ j.cfg.zone := by
      obtain ⟨i, hi, hic, hsame, hz⟩ := (moves_iff _ _).mp hm
      obtain rfl := hdold k hk i hi (hic.trans hc.symm)
      exact ⟨hsame, hz⟩
    by_cases hsame : SameDriver k j
    · by_cases hz : k.cfg.zone = j.cfg.zone
      · rw [joinPass_of_kept hold hkold hc hsame hz]
        exact quiet (fun hm => (only hm).2 hz) (keepChannel_quiet j u).2
      · rw [joinPass_of_moved hold hkold hc hsame hz, if_pos ((moves_iff _ _).mpr ⟨k, hk, hc, hsame, hz⟩),
          Channel.released, ← hp]
        exact releaseForAdoption_queue seat j u
    · rw [joinPass_of_replaced hold hkold hc hsame]
      exact quiet (fun hm => hsame (only hm).1) rfl

/-- The HAND_RELEASED records that one seat takes as the old set leaves and the new one joins: those of the
channels that leave, by their old addresses, then those of the moved ones, by their new ones (log 41). -/
theorem adoptJoined_queue (hdold : Distinct ((s.set p).circuits p)) (hdnew : Distinct (x.set.circuits p)) :
    let freed (l : List Circuit) : List Event := l.filterMap fun k =>
      if (s.channel k.cfg.channel).hand.any fun y => y.seat == seat then
        some (.handReleased p k.cfg.channel .adoption) else none
    (adoptJoined p x s).queue seat =
      (freed (((s.set p).circuits p).filter (goes (x.set.circuits p))) ++
        freed ((x.set.circuits p).filter (moves ((s.set p).circuits p)))).foldl
        (fun q e => q.place e s.uptime) ((adoptResolved p x s).queue seat) := by
  intro freed
  have hnow : (adoptResolved p x s).now = s.now := (adoptResolved_daylight p x s).now
  have hnowL : (adoptLeft p x s).now = s.now :=
    adoptLeft_rest.now.trans hnow
  have hleft : (adoptLeft p x s).queue seat =
      (freed (((s.set p).circuits p).filter (goes (x.set.circuits p)))).foldl
        (fun q e => q.place e s.uptime) ((adoptResolved p x s).queue seat) := by
    have h := forEach_queue (seat := seat) (f := leavePass x.set)
      (told := fun k u => if goes (x.set.circuits p) k then
        (u.channel k.cfg.channel).released seat p k.cfg.channel else [])
      (circuits_nodup (s.set p) p) (fun k _ u => (leavePass_rest x.set k u).now)
      (fun k hk u => leavePass_queue seat hdnew (circuit_portal hk) u)
      (fun k hk j hj hjk u => by rw [leavePass_channel_of_ne (hdold.channel_ne hk hj hjk).symm])
      (adoptResolved p x s)
    simp only [adoptResolved_channel, Channel.released, flatMap_filter, uptime_of_now hnow] at h
    exact h
  have hjoined : (adoptJoined p x s).queue seat =
      (freed ((x.set.circuits p).filter (moves ((s.set p).circuits p)))).foldl
        (fun q e => q.place e s.uptime) ((adoptLeft p x s).queue seat) := by
    have h := forEach_queue (seat := seat)
      (f := joinPass (s.set p) ((adoptResolved p x s).lampLine p).down)
      (told := fun j u => if moves ((s.set p).circuits p) j then
        (u.channel j.cfg.channel).released seat p j.cfg.channel else [])
      (circuits_nodup x.set p) (fun k _ u => (joinPass_rest (s.set p) _ k u).now)
      (fun j hj u => joinPass_queue seat hdold (circuit_portal hj) _ u)
      (fun k hk j hj hjk u => by rw [joinPass_channel_of_ne (hdnew.channel_ne hk hj hjk).symm])
      (adoptLeft p x s)
    have hchan : ((x.set.circuits p).flatMap fun j => if moves ((s.set p).circuits p) j then
          ((adoptLeft p x s).channel j.cfg.channel).released seat p j.cfg.channel else []) =
        (x.set.circuits p).flatMap fun j => if moves ((s.set p).circuits p) j then
          (s.channel j.cfg.channel).released seat p j.cfg.channel else [] := by
      refine List.flatMap_congr fun j hj => ?_
      split
      · next hm =>
        obtain ⟨k, hk, hc, hsame, -⟩ := (moves_iff _ _).mp hm
        rw [← hc, adoptLeft_channel_of_stays hdold hdnew hk
          fun hl => (leaves_iff hdnew hj hc.symm).mp hl hsame]
      · rfl
    rw [hchan] at h
    simp only [Channel.released, flatMap_filter, uptime_of_now hnowL] at h
    exact h
  rw [hjoined, hleft, List.foldl_append]

/-- The HAND_RELEASED records among what one seat is told of an adoption. -/
theorem adopt_released (hdold : Distinct ((s.set p).circuits p)) (hdnew : Distinct (x.set.circuits p)) :
    let freed (l : List Circuit) : List Event := l.filterMap fun k =>
      if (s.channel k.cfg.channel).hand.any fun y => y.seat == seat then
        some (.handReleased p k.cfg.channel .adoption) else none
    ∃ first last : List Event,
      (adopt p x s).queue seat =
        (first ++ freed (((s.set p).circuits p).filter (goes (x.set.circuits p))) ++
          freed ((x.set.circuits p).filter (moves ((s.set p).circuits p))) ++ last).foldl
          (fun q e => q.place e s.uptime) (s.queue seat) ∧
      ∀ e ∈ first ++ last, ∀ c r, e ≠ .handReleased p c r := by
  intro freed
  obtain ⟨-, source, hsource, hq1⟩ := adoptResolved_posts p x s seat
  obtain ⟨-, last, hlast, hq2⟩ := adopt_closing p x s seat
  have hup : (adoptBound p x s).uptime = s.uptime := uptime_of_now (adoptBound_rest p x s).now
  have hupJ : (adoptJoined p x s).uptime = s.uptime :=
    uptime_of_now (adoptJoined_rest.now.trans (adoptResolved_daylight p x s).now)
  refine ⟨(allMeters.flatMap fun m => (s.meter m).told p (s.record p) x.set.record m s.tenths) ++ source,
    last, ?_, fun e he c r => ?_⟩
  · rw [hq2, hupJ, adoptJoined_queue seat hdold hdnew, hq1, hup, adoptBound_queue]
    simp only [List.foldl_append, freed]
  · rintro rfl
    rcases List.mem_append.mp he with he | he
    · rcases List.mem_append.mp he with he | he
      · obtain ⟨m, -, hm⟩ := List.mem_flatMap.mp he
        unfold Meter.told at hm
        split at hm
        · simp at hm
        · split at hm
          · simp at hm
          · split at hm
            · simp at hm
            · simp at hm
      · rcases hsource _ he with ⟨_, _, _, h⟩ | ⟨_, h⟩ <;> cases h
    · rcases hlast _ he with ⟨_, h⟩ | (⟨_, _, h⟩ | h) | ⟨_, h⟩ <;> cases h

end Queue

end Sys2Proof.Machine
end

section
namespace Sys2Proof.Machine

/-! ### Levels that enter, farewells and stations of a lamp line (R130, R137) -/

namespace LampLine

variable (l : LampLine) (a : Fin 16) (level : Nat) (c : Fin 32)

theorem enter_cursor : (l.enter a level c).cursor = l.cursor := by
  unfold enter
  split <;> rfl

theorem enterFarewell_rest :
    { l.enterFarewell a c with updates := l.updates } = l := by
  unfold enterFarewell
  split <;> rfl

theorem enterFarewell_updates : (l.enterFarewell a c).updates =
    if l.waits a then
      l.updates.map fun e =>
        if e.addr = a then { e with level := 0, owner := none, departing := some c } else e
    else l.updates ++ [{ addr := a, level := 0, owner := none, departing := some c }] := by
  unfold enterFarewell
  split <;> rfl

/-- A channel that leaves enters its farewell beside the update set's other entries. -/
theorem leave_updates (b : Bool) : (l.leave a c b).updates = (l.enterFarewell a c).updates := by
  rw [enterFarewell_updates]
  exact enterFarewell_updates _ a c

theorem leave_cursor (b : Bool) : (l.leave a c b).cursor = l.cursor := by
  have h (m : LampLine) : (m.enterFarewell a c).cursor = m.cursor := by
    have e := congrArg cursor (enterFarewell_rest m a c)
    exact e
  exact h _

theorem leave_stations (b : Bool) :
    (l.leave a c b).stations = if l.carries a c then wr l.stations a none else l.stations := by
  unfold leave
  rw [enterFarewell_stations]

/-- The transaction in progress with a channel that leaves is no longer its own (R139). -/
theorem leave_tx (b : Bool) : (l.leave a c b).tx = l.tx.map fun y =>
    if y.addr = a ∧ y.channel = some c then { y with channel := none } else y := by
  have h (m : LampLine) : (m.enterFarewell a c).tx = m.tx := by
    have e := congrArg tx (enterFarewell_rest m a c)
    exact e
  exact h _

/-- Whether the transaction in progress carries the farewell of a channel at an address. -/
def bidsFarewell : Bool := l.tx.any fun y => y.addr == a && y.departing == some c

theorem leave_departed (b : Bool) : (l.leave a c b).departed = l.departed ++
    [{ channel := c, addr := a
       misses := (((rd l.stations a).filter fun t => t.channel == c).map Station.misses).getD 0
       status := ((rd l.stations a).filter fun t => t.channel == c).bind Station.status
       replaced := b, later := l.bidsFarewell a c }] := by
  have h (m : LampLine) : (m.enterFarewell a c).departed = m.departed := by
    have e := congrArg departed (enterFarewell_rest m a c)
    exact e
  exact h _

theorem leave_bidsFarewell (a' : Fin 16) (c' : Fin 32) (b : Bool) :
    (l.leave a c b).bidsFarewell a' c' = l.bidsFarewell a' c' := by
  rw [bidsFarewell, leave_tx, bidsFarewell]
  cases l.tx with
  | none => rfl
  | some y =>
    rw [Option.map_some, Option.any_some, Option.any_some]
    split <;> rfl

variable {l a level c}

/-- Changing entries at one address leaves those at another. -/
theorem mem_map_of_ne {es : List Entry} {e : Entry} (he : e ∈ es) (h : e.addr ≠ a) (f : Entry → Entry) :
    e ∈ es.map (fun e => if e.addr = a then f e else e) :=
  List.mem_map.mpr ⟨e, he, if_neg h⟩

theorem mem_enter_of_ne {e : Entry} (he : e ∈ l.updates) (h : e.addr ≠ a) :
    e ∈ (l.enter a level c).updates := by
  unfold enter
  split
  · exact mem_map_of_ne he h _
  · exact List.mem_append_left _ he

theorem mem_leave_of_ne {e : Entry} (he : e ∈ l.updates) (h : e.addr ≠ a) (b : Bool) :
    e ∈ (l.leave a c b).updates := by
  rw [leave_updates, enterFarewell_updates]
  split
  · exact mem_map_of_ne he h _
  · exact List.mem_append_left _ he

/-- A level that enters stands in the update set. -/
theorem exists_mem_enter (l : LampLine) (a : Fin 16) (level : Nat) (c : Fin 32) :
    ∃ e ∈ (l.enter a level c).updates, e.addr = a ∧ e.owner = some c ∧ e.level = level := by
  unfold enter
  split
  · next h =>
    obtain ⟨e, he, hea⟩ := List.any_eq_true.mp h
    have hea : e.addr = a := by simpa using hea
    exact ⟨_, List.mem_map.mpr ⟨e, he, rfl⟩, by simp [hea]⟩
  · exact ⟨_, List.mem_append_right _ List.mem_cons_self, rfl, rfl, rfl⟩

/-- A level that enters over another keeps what departs with it. -/
theorem exists_mem_enter_of_mem {e : Entry} (he : e ∈ l.updates) (h : e.addr = a) :
    ∃ e' ∈ (l.enter a level c).updates,
      e'.addr = a ∧ e'.owner = some c ∧ e'.departing = e.departing := by
  have hw : l.waits a = true := List.any_eq_true.mpr ⟨e, he, by simpa using h⟩
  unfold enter
  rw [if_pos hw]
  exact ⟨_, List.mem_map.mpr ⟨e, he, rfl⟩, by simp [h]⟩

/-- A farewell stands in the update set. -/
theorem exists_mem_leave (l : LampLine) (a : Fin 16) (c : Fin 32) (b : Bool) :
    ∃ e ∈ (l.leave a c b).updates,
      e.addr = a ∧ e.departing = some c ∧ e.level = 0 ∧ e.owner = none := by
  rw [leave_updates, enterFarewell_updates]
  split
  · next h =>
    obtain ⟨e, he, hea⟩ := List.any_eq_true.mp h
    have hea : e.addr = a := by simpa using hea
    exact ⟨_, List.mem_map.mpr ⟨e, he, rfl⟩, by simp [hea]⟩
  · exact ⟨_, List.mem_append_right _ List.mem_cons_self, rfl, rfl, rfl, rfl⟩

end LampLine

/-! ### The line as the old set leaves and the new one joins -/

section Line

variable {p : Fin 4} {x : PendingSet} {s : State} (hdold : Distinct ((s.set p).circuits p))
  (hdnew : Distinct (x.set.circuits p))

theorem adoptResolved_lampLine (q : Fin 4) : (adoptResolved p x s).lampLine q = s.lampLine q := by
  rw [State.lampLine, (adoptResolved_daylight p x s).lines]
  rfl

/-- What the leaving pass keeps of the line: what each leaving circuit keeps. -/
theorem adoptLeft_line {Q : LampLine → Prop}
    (h : ∀ k ∈ (s.set p).circuits p, Leaves (x.set.circuits p) k → ∀ l b, Q l →
      Q (l.leave k.addr k.cfg.channel b))
    (hdnew : Distinct (x.set.circuits p)) (hs : Q (s.lampLine p)) : Q ((adoptLeft p x s).lampLine p) := by
  refine forEach_keeps (P := fun u => Q (u.lampLine p)) (fun k hk u hu => ?_) (adoptResolved p x s)
    (by rw [adoptResolved_lampLine]; exact hs)
  have hp := circuit_portal hk
  by_cases hl : Leaves (x.set.circuits p) k
  · obtain ⟨b, -, heq⟩ := leavePass_of_leaves (hp ▸ hl) u
    rw [heq, ← hp, leaveChannel_lampLine, hp]
    exact h k hk hl _ _ hu
  · rw [leavePass_of_stays (hp ▸ hdnew) (hp ▸ hl)]
    exact hu

include hdnew in
/-- What a leaving circuit brings about on the line. -/
theorem adoptLeft_line_of_leaves {k : Circuit} (hk : k ∈ (s.set p).circuits p)
    (hl : Leaves (x.set.circuits p) k) {P Q : LampLine → Prop}
    (hat : ∀ l b, (b = true ↔ ∃ j ∈ x.set.circuits p, j.cfg.channel = k.cfg.channel) → Q l →
      P (l.leave k.addr k.cfg.channel b))
    (hbefore : ∀ j ∈ (s.set p).circuits p, j ≠ k → ∀ l b, Q l → Q (l.leave j.addr j.cfg.channel b))
    (hafter : ∀ j ∈ (s.set p).circuits p, j ≠ k → ∀ l b, P l → P (l.leave j.addr j.cfg.channel b))
    (hs : Q (s.lampLine p)) : P ((adoptLeft p x s).lampLine p) := by
  have pass (R : LampLine → Prop) (j : Circuit) (hj : j ∈ (s.set p).circuits p)
      (h : ∀ l b, R l → R (l.leave j.addr j.cfg.channel b)) (u : State) (hu : R (u.lampLine p)) :
      R ((leavePass x.set j u).lampLine p) := by
    have hp := circuit_portal hj
    by_cases hjl : Leaves (x.set.circuits p) j
    · obtain ⟨b, -, heq⟩ := leavePass_of_leaves (hp ▸ hjl) u
      rw [heq, ← hp, leaveChannel_lampLine, hp]
      exact h _ _ hu
    · rw [leavePass_of_stays (hp ▸ hdnew) (hp ▸ hjl)]
      exact hu
  refine forEach_once (P := fun u => P (u.lampLine p)) (Q := fun u => Q (u.lampLine p))
    (circuits_nodup _ p) hk (fun u hu => ?_)
    (fun j hj hjk u hu => pass Q j hj (hbefore j hj hjk) u hu)
    (fun j hj hjk u hu => pass P j hj (hafter j hj hjk) u hu) (adoptResolved p x s)
    (by rw [adoptResolved_lampLine]; exact hs)
  have hp := circuit_portal hk
  obtain ⟨b, hb, heq⟩ := leavePass_of_leaves (hp ▸ hl) u
  rw [heq, ← hp, leaveChannel_lampLine, hp]
  exact hat _ _ (hp ▸ hb) hu

/-- A command enters a level at its circuit's address, or leaves the line. -/
theorem command_line {Q : LampLine → Prop} {p : Fin 4} {k : Circuit} (hp : k.portal = p)
    (h : ∀ l level, Q l → Q (l.enter k.addr level k.cfg.channel)) (level : Nat) (u : State)
    (hu : Q (u.lampLine p)) : Q ((command k level u).lampLine p) := by
  rw [command_lampLine]
  split
  · rw [hp]
    exact h _ _ hu
  · exact hu

/-- A circuit of the new set that does not join enters a level at its address, or leaves the line. -/
theorem joinPass_line {Q : LampLine → Prop} {old : PortalSet} (hdold : Distinct (old.circuits p))
    {j k : Circuit} (hp : j.portal = p) (hk : k ∈ old.circuits p) (hc : k.cfg.channel = j.cfg.channel)
    (h : ∀ l level, Q l → Q (l.enter j.addr level j.cfg.channel)) (down : Bool) (u : State)
    (hu : Q (u.lampLine p)) : Q ((joinPass old down j u).lampLine p) := by
  have hold : Distinct (old.circuits j.portal) := hp ▸ hdold
  have hkold : k ∈ old.circuits j.portal := hp ▸ hk
  have set (y : Channel) : Q ((u.setChannel j.cfg.channel y).lampLine p) := hu
  by_cases hsame : SameDriver k j
  · by_cases hz : k.cfg.zone = j.cfg.zone
    · rw [joinPass_of_kept hold hkold hc hsame hz]
      unfold keepChannel
      dsimp only
      split
      · exact set _
      · split
        · exact set _
        · exact command_line hp h _ _ (set _)
    · rw [joinPass_of_moved hold hkold hc hsame hz, State.lampLine, releaseForAdoption_lines]
      exact hu
  · rw [joinPass_of_replaced hold hkold hc hsame]
    exact set _

/-- The line with a channel that joins. -/
def LampLine.joined (l : LampLine) (a : Fin 16) (c : Fin 32) (down : Bool) : LampLine :=
  (l.station a c down).enter a 0 c

theorem joinPass_line_of_joins {old : PortalSet} {j : Circuit} (hp : j.portal = p)
    (h : ∀ k ∈ old.circuits p, k.cfg.channel ≠ j.cfg.channel) (down : Bool) (u : State) :
    (joinPass old down j u).lampLine p = (u.lampLine p).joined j.addr j.cfg.channel down := by
  rw [joinPass_of_joins (hp ▸ h), State.lampLine, State.setLine_lines, hp, rd_wr_self]
  rfl

/-- What the circuits of the new set keep of the line as they join. -/
theorem joinPass_keeps_line {Q : LampLine → Prop} (hdold : Distinct ((s.set p).circuits p)) {j : Circuit}
    (hj : j ∈ x.set.circuits p)
    (henter : ∀ l level, Q l → Q (l.enter j.addr level j.cfg.channel))
    (hjoin : (∀ k ∈ (s.set p).circuits p, k.cfg.channel ≠ j.cfg.channel) → ∀ l down, Q l →
      Q (l.joined j.addr j.cfg.channel down)) (down : Bool) (u : State) (hu : Q (u.lampLine p)) :
    Q ((joinPass (s.set p) down j u).lampLine p) := by
  have hp := circuit_portal hj
  rcases joins_or_mem ((s.set p).circuits p) j with hnone | ⟨k, hk, hc⟩
  · rw [joinPass_line_of_joins hp hnone]
    exact hjoin hnone _ _ hu
  · exact joinPass_line hdold hp hk hc henter down u hu

include hdold in
theorem adoptJoined_line {Q : LampLine → Prop}
    (henter : ∀ j ∈ x.set.circuits p, ∀ l level, Q l → Q (l.enter j.addr level j.cfg.channel))
    (hjoin : ∀ j ∈ x.set.circuits p, (∀ k ∈ (s.set p).circuits p, k.cfg.channel ≠ j.cfg.channel) →
      ∀ l down, Q l → Q (l.joined j.addr j.cfg.channel down))
    (hs : Q ((adoptLeft p x s).lampLine p)) : Q ((adoptJoined p x s).lampLine p) :=
  forEach_keeps (P := fun u => Q (u.lampLine p))
    (fun j hj u hu => joinPass_keeps_line hdold hj (henter j hj) (hjoin j hj) _ u hu) (adoptLeft p x s) hs

include hdold in
/-- What a circuit that joins brings about on the line. -/
theorem adoptJoined_line_of_joins {j : Circuit} (hj : j ∈ x.set.circuits p)
    (h : ∀ k ∈ (s.set p).circuits p, k.cfg.channel ≠ j.cfg.channel) {Q : LampLine → Prop}
    (hat : ∀ l : LampLine, Q (l.joined j.addr j.cfg.channel (s.lampLine p).down))
    (henter : ∀ k ∈ x.set.circuits p, k ≠ j → ∀ l level, Q l → Q (l.enter k.addr level k.cfg.channel))
    (hjoin : ∀ k ∈ x.set.circuits p, k ≠ j → ∀ (l : LampLine) (down : Bool), Q l →
      Q (l.joined k.addr k.cfg.channel down)) :
    Q ((adoptJoined p x s).lampLine p) := by
  refine forEach_once (P := fun u => Q (u.lampLine p)) (Q := fun _ => True) (circuits_nodup _ p) hj
    (fun u _ => ?_) (fun _ _ _ _ _ => trivial)
    (fun k hk hkj u hu => joinPass_keeps_line hdold hk (henter k hk hkj) (fun _ => hjoin k hk hkj) _ u hu)
    (adoptLeft p x s) trivial
  rw [joinPass_line_of_joins (circuit_portal hj) h, adoptResolved_lampLine]
  exact hat _

/-- What levels that enter and the line condition keep of the line holds of the adoption. -/
theorem adoptTripped_line {Q : LampLine → Prop}
    (henter : ∀ j ∈ x.set.circuits p, ∀ l level, Q l → Q (l.enter j.addr level j.cfg.channel))
    (hdown : ∀ l b, Q l → Q { l with down := b }) (hs : Q ((adoptJoined p x s).lampLine p)) :
    Q ((adoptTripped p x s).lampLine p) := by
  refine (KeptByOutput.tripped (C := fun k => k ∈ x.set.circuits p)
    (P := fun u => u.circuits p = x.set.circuits p ∧ Q (u.lampLine p))
    { scope := fun u hu k hk => hu.1 ▸ hk, zone := fun _ _ _ h => h, aim := fun _ _ _ _ h => h
      command := fun k level u hk hu =>
        ⟨?_, command_line (circuit_portal hk) (henter k hk) level u hu.2⟩
      post := fun _ _ h => h, trip := fun _ _ h => h
      line := fun b u hu => ⟨hu.1, ?_⟩ } x s (fun _ hk => hk) ⟨adoptJoined_circuits, hs⟩).2
  · rw [State.circuits, State.set, command_active]
    exact hu.1
  · rw [State.lampLine, State.setLine_lines, rd_wr_self]
    exact hdown _ _ hu.2

end Line

end Sys2Proof.Machine
end

section
namespace Sys2Proof.Machine

/-! ### The lamp line after an adoption (R13, R137, R139) -/

namespace LampLine

theorem bidsFarewell_iff (l : LampLine) (a : Fin 16) (c : Fin 32) :
    l.bidsFarewell a c = true ↔ ∃ y ∈ l.tx, y.addr = a ∧ y.departing = some c := by
  simp only [bidsFarewell, Option.any_eq_true, Bool.and_eq_true, beq_iff_eq, Option.mem_def]

variable {l : LampLine} {a b : Fin 16} {c d : Fin 32} {v : Bool}

theorem joined_stations (l : LampLine) (a : Fin 16) (c : Fin 32) (down : Bool) :
    (l.joined a c down).stations =
      wr l.stations a (some { channel := c, misses := if down then 3 else 0, status := none }) := by
  rw [joined, enter_stations]
  rfl

theorem joined_departed (l : LampLine) (a : Fin 16) (c : Fin 32) (down : Bool) :
    (l.joined a c down).departed = l.departed := by
  rw [joined, enter_departed]
  rfl

theorem joined_tx (l : LampLine) (a : Fin 16) (c : Fin 32) (down : Bool) :
    (l.joined a c down).tx = l.tx := by
  rw [joined, enter_tx]
  rfl

theorem joined_cursor (l : LampLine) (a : Fin 16) (c : Fin 32) (down : Bool) :
    (l.joined a c down).cursor = l.cursor := by
  rw [joined, enter_cursor]
  rfl

/-- A channel leaves its own address alone, and puts no other channel there. -/
theorem leave_station_of_ne (h : b ≠ a) : rd (l.leave b d v).stations a = rd l.stations a := by
  rw [leave_stations]
  split
  · exact rd_wr_of_ne _ _ h
  · rfl

theorem leave_station_none (h : rd l.stations a = none) : rd (l.leave b d v).stations a = none := by
  by_cases hb : b = a
  · subst hb
    rw [leave_stations]
    split
    · exact rd_wr_self _ _ _
    · exact h
  · rw [leave_station_of_ne hb]
    exact h

theorem leave_carries_self : (l.leave a c v).carries a c = false := by
  cases h : l.carries a c
  · rw [carries, leave_stations, h, if_neg Bool.false_ne_true]
    exact h
  · rw [carries, leave_stations, h, if_pos rfl, rd_wr_self]
    rfl

theorem leave_carries_false (h : l.carries a c = false) : (l.leave b d v).carries a c = false := by
  by_cases hb : b = a
  · subst hb
    rw [carries, leave_stations]
    split
    · rw [rd_wr_self]
      rfl
    · exact h
  · rw [carries, leave_station_of_ne hb]
    exact h

end LampLine

section Line

variable {p : Fin 4} {x : PendingSet} {s : State} (hdold : Distinct ((s.set p).circuits p))
  (hdnew : Distinct (x.set.circuits p))

include hdold hdnew in
theorem adoptTripped_cursor : ((adoptTripped p x s).lampLine p).cursor = (s.lampLine p).cursor := by
  refine adoptTripped_line (Q := fun l => l.cursor = (s.lampLine p).cursor)
    (fun j _ l level h => (l.enter_cursor _ _ _).trans h) (fun _ _ h => h)
    (adoptJoined_line hdold (fun j _ l level h => (l.enter_cursor _ _ _).trans h)
      (fun j _ _ l down h => (l.joined_cursor _ _ _).trans h) ?_)
  exact adoptLeft_line (Q := fun l => l.cursor = (s.lampLine p).cursor)
    (fun k _ _ l b h => (l.leave_cursor _ _ _).trans h) hdnew rfl

/-- Once the new set has joined, the stations stand. -/
theorem adoptTripped_stations :
    ((adoptTripped p x s).lampLine p).stations = ((adoptJoined p x s).lampLine p).stations :=
  adoptTripped_line (Q := fun l => l.stations = ((adoptJoined p x s).lampLine p).stations)
    (fun _ _ l _ h => (LampLine.enter_stations l _ _ _).trans h) (fun _ _ h => h) rfl

/-- An address at which no channel joins keeps its station. -/
theorem adoptJoined_station_of_none (hdold : Distinct ((s.set p).circuits p)) {a : Fin 16}
    (h : ∀ j ∈ x.set.circuits p, (∀ k ∈ (s.set p).circuits p, k.cfg.channel ≠ j.cfg.channel) → j.addr ≠ a) :
    rd ((adoptJoined p x s).lampLine p).stations a = rd ((adoptLeft p x s).lampLine p).stations a :=
  adoptJoined_line (Q := fun l => rd l.stations a = rd ((adoptLeft p x s).lampLine p).stations a) hdold
    (fun _ _ l _ hl => by
      rw [LampLine.enter_stations]
      exact hl)
    (fun j hj hjoin l down hl => by
      rw [LampLine.joined_stations, rd_wr_of_ne _ _ (h j hj hjoin)]
      exact hl) rfl

include hdold in
/-- A channel that joins is on the line at its address, its level entered (R137). -/
theorem adoptTripped_station_of_joins {j : Circuit} (hj : j ∈ x.set.circuits p)
    (h : ∀ k ∈ (s.set p).circuits p, k.cfg.channel ≠ j.cfg.channel) :
    rd ((adoptTripped p x s).lampLine p).stations j.addr =
      some { channel := j.cfg.channel, misses := if (s.lampLine p).down then 3 else 0, status := none } := by
  rw [adoptTripped_stations]
  refine adoptJoined_line_of_joins (Q := fun l => rd l.stations j.addr = _) hdold hj h (fun l => ?_)
    (fun _ _ _ l _ hl => ?_) (fun k hk hkj l down hl => ?_)
  · rw [LampLine.joined_stations, rd_wr_self]
  · rw [LampLine.enter_stations]
    exact hl
  · rw [LampLine.joined_stations, rd_wr_of_ne _ _ (addr_ne hj hk hkj)]
    exact hl

include hdold in
theorem adoptTripped_entry_of_joins {j : Circuit} (hj : j ∈ x.set.circuits p)
    (h : ∀ k ∈ (s.set p).circuits p, k.cfg.channel ≠ j.cfg.channel) :
    ∃ e ∈ ((adoptTripped p x s).lampLine p).updates, e.addr = j.addr ∧ e.owner = some j.cfg.channel := by
  have kept (k : Circuit) (hk : k ∈ x.set.circuits p) (hkj : k ≠ j) (l : LampLine) (level : Nat)
      (hl : ∃ e ∈ l.updates, e.addr = j.addr ∧ e.owner = some j.cfg.channel) :
      ∃ e ∈ (l.enter k.addr level k.cfg.channel).updates,
        e.addr = j.addr ∧ e.owner = some j.cfg.channel := by
    obtain ⟨e, he, hea, heo⟩ := hl
    exact ⟨e, LampLine.mem_enter_of_ne he (hea ▸ (addr_ne hj hk hkj).symm), hea, heo⟩
  have entered (l : LampLine) (level : Nat) :
      ∃ e ∈ (l.enter j.addr level j.cfg.channel).updates,
        e.addr = j.addr ∧ e.owner = some j.cfg.channel := by
    obtain ⟨e, he, hea, heo, -⟩ := l.exists_mem_enter j.addr level j.cfg.channel
    exact ⟨e, he, hea, heo⟩
  refine adoptTripped_line
    (Q := fun l => ∃ e ∈ l.updates, e.addr = j.addr ∧ e.owner = some j.cfg.channel)
    (fun k hk l level hl => ?_) (fun _ _ hl => hl)
    (adoptJoined_line_of_joins hdold hj h (fun l => entered _ _) kept
      (fun k hk hkj l down hl => kept k hk hkj (l.station k.addr k.cfg.channel down) 0 hl))
  by_cases hkj : k = j
  · subst hkj
    exact entered _ _
  · exact kept k hk hkj l level hl

/-- The farewell of a circuit stands in the update set, alone where no circuit of the new set takes its
address. -/
def LampLine.bids (l : LampLine) (new : List Circuit) (k : Circuit) : Prop :=
  ∃ e ∈ l.updates, e.addr = k.addr ∧ e.departing = some k.cfg.channel ∧
    ((∀ j ∈ new, j.addr ≠ k.addr) → e.level = 0 ∧ e.owner = none)

theorem bids_enter {l : LampLine} {new : List Circuit} {j k : Circuit} (hj : j ∈ new)
    (h : l.bids new k) (level : Nat) : (l.enter j.addr level j.cfg.channel).bids new k := by
  obtain ⟨e, he, hea, hed, hfree⟩ := h
  by_cases hja : j.addr = k.addr
  · obtain ⟨e', he', hea', -, hed'⟩ := LampLine.exists_mem_enter_of_mem (level := level)
      (c := j.cfg.channel) he (hea.trans hja.symm)
    exact ⟨e', he', hea'.trans hja, hed'.trans hed, fun hno => absurd hja (hno j hj)⟩
  · exact ⟨e, LampLine.mem_enter_of_ne he (hea ▸ Ne.symm hja), hea, hed, hfree⟩

include hdnew in
/-- A channel that leaves enters its farewell. -/
theorem adoptTripped_bids (hdold : Distinct ((s.set p).circuits p)) {k : Circuit}
    (hk : k ∈ (s.set p).circuits p) (hl : Leaves (x.set.circuits p) k) :
    ((adoptTripped p x s).lampLine p).bids (x.set.circuits p) k := by
  have left : ((adoptLeft p x s).lampLine p).bids (x.set.circuits p) k := by
    refine adoptLeft_line_of_leaves (Q := fun _ => True) (P := fun l => l.bids (x.set.circuits p) k)
      hdnew hk hl (fun l b _ _ => ?_) (fun _ _ _ _ _ _ => trivial) (fun j hj hjk l b h => ?_) trivial
    · obtain ⟨e, he, hea, hed, hlevel, howner⟩ := l.exists_mem_leave k.addr k.cfg.channel b
      exact ⟨e, he, hea, hed, fun _ => ⟨hlevel, howner⟩⟩
    · obtain ⟨e, he, hea, hrest⟩ := h
      exact ⟨e, LampLine.mem_leave_of_ne he (hea ▸ (addr_ne hk hj hjk).symm) b, hea, hrest⟩
  refine adoptTripped_line (Q := fun l => l.bids (x.set.circuits p) k)
    (fun j hj l level h => bids_enter hj h level) (fun _ _ h => h)
    (adoptJoined_line (Q := fun l => l.bids (x.set.circuits p) k) hdold
      (fun j hj l level h => bids_enter hj h level) (fun j hj _ l down h => ?_) left)
  exact bids_enter (l := l.station j.addr j.cfg.channel down) hj h 0

include hdnew in
/-- What the line keeps for a channel that leaves, until its farewell completes (R137, R138). -/
theorem adoptTripped_departed (hdold : Distinct ((s.set p).circuits p)) {k : Circuit}
    (hk : k ∈ (s.set p).circuits p) (hl : Leaves (x.set.circuits p) k) :
    ∃ d ∈ ((adoptTripped p x s).lampLine p).departed, d.channel = k.cfg.channel ∧ d.addr = k.addr ∧
      (d.replaced = true ↔ ∃ j ∈ x.set.circuits p, j.cfg.channel = k.cfg.channel) ∧
      (d.later = true ↔
        ∃ y ∈ (s.lampLine p).tx, y.addr = k.addr ∧ y.departing = some k.cfg.channel) ∧
      (∀ t ∈ rd (s.lampLine p).stations k.addr, t.channel = k.cfg.channel →
        d.misses = t.misses ∧ d.status = t.status) := by
  have hdep : ((adoptTripped p x s).lampLine p).departed = ((adoptLeft p x s).lampLine p).departed :=
    adoptTripped_line (Q := fun l => l.departed = ((adoptLeft p x s).lampLine p).departed)
      (fun _ _ l _ h => (LampLine.enter_departed l _ _ _).trans h) (fun _ _ h => h)
      (adoptJoined_line hdold (fun _ _ l _ h => (LampLine.enter_departed l _ _ _).trans h)
        (fun _ _ _ l _ h => (LampLine.joined_departed l _ _ _).trans h) rfl)
  rw [hdep]
  refine adoptLeft_line_of_leaves hdnew hk hl
    (Q := fun l => rd l.stations k.addr = rd (s.lampLine p).stations k.addr ∧
      l.bidsFarewell k.addr k.cfg.channel = (s.lampLine p).bidsFarewell k.addr k.cfg.channel)
    (P := fun l => ∃ d ∈ l.departed, d.channel = k.cfg.channel ∧ d.addr = k.addr ∧
      (d.replaced = true ↔ ∃ j ∈ x.set.circuits p, j.cfg.channel = k.cfg.channel) ∧
      (d.later = true ↔
        ∃ y ∈ (s.lampLine p).tx, y.addr = k.addr ∧ y.departing = some k.cfg.channel) ∧
      (∀ t ∈ rd (s.lampLine p).stations k.addr, t.channel = k.cfg.channel →
        d.misses = t.misses ∧ d.status = t.status))
    (fun l b hb hq => ?_) (fun j hj hjk l b hq => ?_) (fun j hj hjk l b h => ?_) ⟨rfl, rfl⟩
  · obtain ⟨hst, htx⟩ := hq
    refine ⟨_, by rw [LampLine.leave_departed]; exact List.mem_append_right _ List.mem_cons_self, rfl, rfl, hb,
      ?_, fun t ht hc => ?_⟩
    · exact htx ▸ LampLine.bidsFarewell_iff _ _ _
    · rw [hst, Option.mem_def.mp ht]
      have hkept : (some t).filter (fun t => t.channel == k.cfg.channel) = some t := by
        simp [Option.filter, hc]
      rw [hkept]
      exact ⟨rfl, rfl⟩
  · exact ⟨(LampLine.leave_station_of_ne (addr_ne hk hj hjk)).trans hq.1,
      (LampLine.leave_bidsFarewell _ _ _ _ _ _).trans hq.2⟩
  · obtain ⟨d, hd, hrest⟩ := h
    exact ⟨d, by rw [LampLine.leave_departed]; exact List.mem_append_left _ hd, hrest⟩

include hdnew in
/-- A channel that leaves an address for good leaves no station there. -/
theorem adoptTripped_station_of_leaves (hdold : Distinct ((s.set p).circuits p)) {k : Circuit}
    (hk : k ∈ (s.set p).circuits p) (hl : Leaves (x.set.circuits p) k)
    (hfree : ∀ j ∈ x.set.circuits p, j.addr ≠ k.addr)
    (hcarries : (s.lampLine p).carries k.addr k.cfg.channel = true) :
    rd ((adoptTripped p x s).lampLine p).stations k.addr = none := by
  rw [adoptTripped_stations, adoptJoined_station_of_none hdold fun j hj _ => hfree j hj]
  refine adoptLeft_line_of_leaves hdnew hk hl (Q := fun l => l.carries k.addr k.cfg.channel = true)
    (P := fun l => rd l.stations k.addr = none) (fun l b _ hq => ?_) (fun j hj hjk l b hq => ?_)
    (fun j _ _ l b h => LampLine.leave_station_none h) hcarries
  · rw [LampLine.leave_stations, if_pos hq, rd_wr_self]
  · rw [LampLine.carries, LampLine.leave_station_of_ne (addr_ne hk hj hjk)]
    exact hq

section Old

variable {j k : Circuit} (hj : j ∈ x.set.circuits p) (hk : k ∈ (s.set p).circuits p)
  (hc : j.cfg.channel = k.cfg.channel)
include hdold hdnew hj hk hc

/-- The joining side of a replaced channel is not on the line yet (R137). -/
theorem adoptTripped_carries_of_replaced (h : ¬ SameDriver k j)
    (ha : k.addr = j.addr ∨ (s.lampLine p).carries j.addr j.cfg.channel = false) :
    ((adoptTripped p x s).lampLine p).carries j.addr j.cfg.channel = false := by
  have hl : Leaves (x.set.circuits p) k := (leaves_iff hdnew hj hc).mpr h
  have left : ((adoptLeft p x s).lampLine p).carries j.addr j.cfg.channel = false := by
    rcases ha with ha | ha
    · rw [← ha, hc]
      exact adoptLeft_line_of_leaves hdnew hk hl (Q := fun _ => True)
        (P := fun l => l.carries k.addr k.cfg.channel = false)
        (fun l b _ _ => LampLine.leave_carries_self) (fun _ _ _ _ _ _ => trivial)
        (fun _ _ _ _ _ h => LampLine.leave_carries_false h) trivial
    · exact adoptLeft_line (Q := fun l => l.carries j.addr j.cfg.channel = false)
        (fun _ _ _ _ _ h => LampLine.leave_carries_false h) hdnew ha
  rw [LampLine.carries, adoptTripped_stations, adoptJoined_station_of_none hdold fun i hi hjoin => ?_]
  · exact left
  · refine addr_ne hj hi fun hij => hjoin k hk ?_
    rw [hij]
    exact hc.symm

/-- A kept or moved channel stands in its place on the line. -/
theorem adoptTripped_station_of_same (h : SameDriver k j) :
    rd ((adoptTripped p x s).lampLine p).stations j.addr = rd (s.lampLine p).stations j.addr := by
  rw [adoptTripped_stations, adoptJoined_station_of_none hdold fun i hi hjoin => ?_]
  · refine adoptLeft_line (Q := fun l => rd l.stations j.addr = rd (s.lampLine p).stations j.addr)
      (fun i hi hl l b hq => ?_) hdnew rfl
    have hik : i ≠ k := fun hik => (leaves_iff hdnew hj hc).mp (hik ▸ hl) h
    rw [LampLine.leave_station_of_ne (h.1 ▸ addr_ne hk hi hik)]
    exact hq
  · refine addr_ne hj hi fun hij => hjoin k hk ?_
    rw [hij]
    exact hc.symm

end Old

include hdold hdnew in
/-- The transaction in progress is a leaving channel's no longer (R139). -/
theorem adoptTripped_tx {y : Transaction} (hy : (s.lampLine p).tx = some y) :
    ((∃ k ∈ (s.set p).circuits p, k.addr = y.addr ∧ y.channel = some k.cfg.channel ∧
        Leaves (x.set.circuits p) k) →
      ((adoptTripped p x s).lampLine p).tx = some { y with channel := none }) ∧
    ((¬ ∃ k ∈ (s.set p).circuits p, k.addr = y.addr ∧ y.channel = some k.cfg.channel ∧
        Leaves (x.set.circuits p) k) →
      ((adoptTripped p x s).lampLine p).tx = some y) := by
  have htx : ((adoptTripped p x s).lampLine p).tx = ((adoptLeft p x s).lampLine p).tx :=
    adoptTripped_line (Q := fun l => l.tx = ((adoptLeft p x s).lampLine p).tx)
      (fun _ _ l _ h => (LampLine.enter_tx l _ _ _).trans h) (fun _ _ h => h)
      (adoptJoined_line hdold (fun _ _ l _ h => (LampLine.enter_tx l _ _ _).trans h)
        (fun _ _ _ l _ h => (LampLine.joined_tx l _ _ _).trans h) rfl)
  have keeps (z : Transaction) (a : Fin 16) (c : Fin 32) (h : ¬ (z.addr = a ∧ z.channel = some c))
      (l : LampLine) (b : Bool) (hl : l.tx = some z) : (l.leave a c b).tx = some z := by
    rw [LampLine.leave_tx, hl, Option.map_some, if_neg h]
  rw [htx]
  constructor
  · rintro ⟨k, hk, ha, hch, hl⟩
    refine adoptLeft_line_of_leaves hdnew hk hl (Q := fun l => l.tx = some y)
      (P := fun l => l.tx = some { y with channel := none }) (fun l b _ hq => ?_)
      (fun j hj hjk l b hq => ?_) (fun j _ _ l b h => ?_) hy
    · rw [LampLine.leave_tx, hq, Option.map_some, if_pos ⟨ha.symm, hch⟩]
    · exact keeps y _ _ (fun h => addr_ne hk hj hjk (h.1.symm.trans ha.symm)) l b hq
    · exact keeps _ _ _ (by rintro ⟨-, hn⟩; cases hn) l b h
  · intro hno
    refine adoptLeft_line (Q := fun l => l.tx = some y) (fun k hk hl l b hq => ?_) hdnew hy
    exact keeps y _ _ (fun h => hno ⟨k, hk, h.1.symm, h.2, hl⟩) l b hq

/-- What an untripped portal keeps of its line once the new set has joined: what the levels of its SWITCHED
channels and the line condition keep (R99). -/
theorem adoptLighted_line {Q : LampLine → Prop} (ht : s.tripped p = false)
    (henter : ∀ j ∈ x.set.circuits p, j.cfg.switched = true → ∀ l level, Q l →
      Q (l.enter j.addr level j.cfg.channel))
    (hdown : ∀ l b, Q l → Q { l with down := b }) (hs : Q ((adoptJoined p x s).lampLine p)) :
    Q ((adoptLighted p x s).lampLine p) := by
  have driven (k : Circuit) (hk : k ∈ x.set.circuits p) (u : State) (hu : Q (u.lampLine p)) :
      Q ((driveSwitched k u).lampLine p) := by
    unfold driveSwitched
    dsimp only
    split
    · next h => exact command_line (circuit_portal hk) (henter k hk h.1) _ u hu
    · exact hu
  have settled : Q ((forEach (x.set.circuits p) settlePass (adoptJoined p x s)).lampLine p) := by
    refine (forEach_keeps (P := fun u => u.tripped p = s.tripped p ∧ Q (u.lampLine p))
      (fun k hk u hu => ⟨?_, ?_⟩) (adoptJoined p x s) ⟨adoptJoined_tripped, hs⟩).2
    · rw [State.tripped, State.tripUnit, (settlePass_rest _ _).trips]
      exact hu.1
    · have hku : u.tripped k.portal = false := (circuit_portal hk).symm ▸ hu.1.trans ht
      have given : Q ((giveTarget k 0 u).lampLine p) := hu.2
      unfold settlePass
      dsimp only
      rw [hku, if_neg Bool.false_ne_true]
      split
      · exact driven k hk _ given
      · exact hu.2
  have tested : Q ((adoptTested p x s).lampLine p) := by
    have line (u : State) (b : Bool) (hu : Q (u.lampLine p)) :
        Q ((u.setLine p { u.lampLine p with down := b }).lampLine p) := by
      rw [State.lampLine, State.setLine_lines, rd_wr_self]
      exact hdown _ _ hu
    have told (u : State) (e : Event) (hu : Q (u.lampLine p)) : Q ((postAll e u).lampLine p) := hu
    have set (u : State) (y : TripUnit) (hu : Q (u.lampLine p)) : Q ((u.setTrip p y).lampLine p) := hu
    unfold adoptTested testLineOnly
    dsimp only
    split
    · exact settled
    · exact set _ _ (told _ _ (line _ _ settled))
  have scope (u : State) (hu : u.circuits p = x.set.circuits p ∧ Q (u.lampLine p)) :
      ∀ k ∈ u.circuits p, k ∈ x.set.circuits p := fun k hk => hu.1 ▸ hk
  refine (adoptLighted_keeps (C := fun k => k ∈ x.set.circuits p)
    (P := fun u => u.circuits p = x.set.circuits p ∧ Q (u.lampLine p))
    (fun z => { scope := scope, zone := fun _ _ h => h, aim := fun _ _ _ _ _ _ h => h
                give := giveSwitched_of_writes scope (fun _ _ _ _ _ h => h)
                  fun k level u hk _ hsw _ _ hu =>
                    ⟨?_, command_line (circuit_portal hk) (henter k hk hsw) level u hu.2⟩ })
    (fun _ _ _ h => h) ⟨adoptTested_circuits, tested⟩).2
  rw [State.circuits, State.set, command_active]
  exact hu.1

include hdold in
/-- The level 0 that a joining DIMMED channel of an untripped portal enters stands (R13, R137). -/
theorem adoptLighted_entry_of_joins {j : Circuit} (hj : j ∈ x.set.circuits p)
    (h : ∀ k ∈ (s.set p).circuits p, k.cfg.channel ≠ j.cfg.channel) (ht : s.tripped p = false)
    (hd : j.cfg.switched = false) :
    ∃ e ∈ ((adoptLighted p x s).lampLine p).updates,
      e.addr = j.addr ∧ e.owner = some j.cfg.channel ∧ e.level = 0 := by
  have kept (k : Circuit) (hk : k ∈ x.set.circuits p) (hkj : k ≠ j) (l : LampLine) (level : Nat)
      (hl : ∃ e ∈ l.updates, e.addr = j.addr ∧ e.owner = some j.cfg.channel ∧ e.level = 0) :
      ∃ e ∈ (l.enter k.addr level k.cfg.channel).updates,
        e.addr = j.addr ∧ e.owner = some j.cfg.channel ∧ e.level = 0 := by
    obtain ⟨e, he, hea, hrest⟩ := hl
    exact ⟨e, LampLine.mem_enter_of_ne he (hea ▸ (addr_ne hj hk hkj).symm), hea, hrest⟩
  refine adoptLighted_line
    (Q := fun l => ∃ e ∈ l.updates, e.addr = j.addr ∧ e.owner = some j.cfg.channel ∧ e.level = 0) ht
    (fun k hk hsw l level hl => kept k hk ?_ l level hl) (fun _ _ hl => hl)
    (adoptJoined_line_of_joins hdold hj h
      (fun l => (l.station j.addr j.cfg.channel _).exists_mem_enter j.addr 0 j.cfg.channel) kept
      (fun k hk hkj l down hl => kept k hk hkj (l.station k.addr k.cfg.channel down) 0 hl))
  rintro rfl
  exact Bool.false_ne_true (hd.symm.trans hsw)

end Line

end Sys2Proof.Machine
end

section
namespace Sys2Proof.Machine

/-! ### What a plan reads of its zone's channels (R88, R90) -/

/-- From `s` to `u` the circuits of a list keep their hands, and in AUTO their levels. -/
def Agrees (l : List Circuit) (s u : State) : Prop :=
  ∀ k ∈ l, (u.channel k.cfg.channel).hand = (s.channel k.cfg.channel).hand ∧
    ((s.channel k.cfg.channel).hand = none →
      (u.channel k.cfg.channel).level = (s.channel k.cfg.channel).level)

theorem Agrees.trans {l : List Circuit} {s t u : State} (h : Agrees l s t) (g : Agrees l t u) :
    Agrees l s u := fun k hk =>
  ⟨(g k hk).1.trans (h k hk).1,
    fun hn => ((g k hk).2 ((h k hk).1.trans hn)).trans ((h k hk).2 hn)⟩

theorem Agrees.of_channels {l : List Circuit} {s u : State} (h : u.channels = s.channels) :
    Agrees l s u := fun k _ => by
  rw [State.channel, h]
  exact ⟨rfl, fun _ => rfl⟩

theorem dimmed_of_active {p : Fin 4} {s u : State} (h : u.active = s.active) (z : Fin 5) :
    u.dimmed p z = s.dimmed p z := by
  rw [State.dimmed, State.circuits, State.set, h]
  rfl

/-- Which levels a zone has reached depends on hands, and on the levels of channels in AUTO. -/
theorem reached_of_agrees {p : Fin 4} {z : Fin 5} {s u : State} (ha : u.active = s.active)
    (h : Agrees (s.dimmed p z) s u) : u.reached p z = s.reached p z := by
  funext level
  rw [State.reached, State.reached, dimmed_of_active ha, Bool.eq_iff_iff, List.all_eq_true, List.all_eq_true]
  refine forall₂_congr fun k hk => ?_
  obtain ⟨hh, hl⟩ := h k hk
  rw [hh]
  cases hs : (s.channel k.cfg.channel).hand with
  | none => rw [hl hs]
  | some y => simp

/-- Whatever a plan writes, the DIMMED channels of the portal keep their hands and their levels. -/
theorem agreesPlan {p : Fin 4} {s : State} (hd : Distinct (s.circuits p)) (z y : Fin 5) :
    KeptByPlan p y (fun k => k ∈ s.circuits p)
      (fun u => u.active = s.active ∧ Agrees (s.dimmed p z) s u) := by
  have aim (k : Circuit) (t : Option Nat) (u : State) (hu : Agrees (s.dimmed p z) s u) :
      Agrees (s.dimmed p z) s
        (u.setChannel k.cfg.channel { u.channel k.cfg.channel with target := t }) := by
    intro j hj
    by_cases hc : k.cfg.channel = j.cfg.channel
    · rw [← hc, State.channel, State.setChannel_channels, rd_wr_self, hc]
      exact hu j hj
    · rw [State.channel, State.setChannel_channels, rd_wr_of_ne _ _ hc]
      exact hu j hj
  have scope (u : State) (hu : u.active = s.active ∧ Agrees (s.dimmed p z) s u) :
      ∀ k ∈ u.circuits p, k ∈ s.circuits p := by
    intro k hk
    rw [State.circuits, State.set, hu.1] at hk
    exact hk
  refine
    { scope := scope, zone := fun _ _ h => h
      aim := fun k t u _ _ _ hu => ⟨hu.1, aim k t u hu.2⟩
      give := giveSwitched_of_writes scope (fun k t u _ _ hu => ⟨hu.1, aim k t u hu.2⟩)
        fun k level u hk _ hsw _ _ hu => ⟨(command_active _ _ _).trans hu.1, fun j hj => ?_⟩ }
  obtain ⟨hjc, -, hjd⟩ := mem_dimmed.mp hj
  rw [command_channel_of_ne (c := j.cfg.channel)]
  · exact hu.2 j hj
  · intro hc
    obtain rfl := hd j hjc k hk hc
    exact Bool.false_ne_true (hjd.symm.trans hsw)

/-! ### A zone that takes the new set (R5, R98) -/

/-- A present zone as it takes a set. -/
def Zone.taken (zn : Zone) (level : Nat) (kept on : Bool) : Zone :=
  { zn with
    working := level, confirm := none, degraded := false
    confirmed := kept && zn.confirmed, switched := if kept then zn.switched else on }

/-- A plan of a zone at its portal's present moment. -/
def State.plans (s : State) (p : Fin 4) (z : Fin 5) (zn : Zone) : Zone :=
  zn.planned (s.boostShare p z) (s.reached p z) s.now (overlapEnd p s)

theorem plan_zone_eq {p : Fin 4} {s : State} (hd : Distinct (s.circuits p)) (z : Fin 5) (zn : Zone) :
    (plan p z zn s).zone p z = some (s.plans p z zn) := plan_zone hd zn

section AdoptZone

variable {p : Fin 4} {z : Fin 5} {s : State} (hd : Distinct (s.circuits p))
  (hz : rd (s.record p).zones z = true)
include hd hz

theorem adoptZone_of_none (h : s.zone p z = none) (old : PortalSet) :
    (adoptZone p old z s).zone p z = some (
      if s.tripped p || s.tripsNext p then Zone.fresh (s.zoneLevel p z) (s.switchedLevel p z) true
      else s.plans p z (Zone.fresh (s.zoneLevel p z) (s.switchedLevel p z) false)) := by
  have set (y : Zone) : (s.setZone p z (some y)).zone p z = some y := by simp [State.zone]
  unfold adoptZone
  dsimp only
  rw [if_pos hz, h]
  cases s.tripped p || s.tripsNext p
  · exact plan_zone_eq hd z _
  · exact set _

theorem adoptZone_of_some {zn : Zone} (h : s.zone p z = some zn) (old : PortalSet) :
    let taken := zn.taken (s.zoneLevel p z) (keptSwitched old (s.set p) p z) (s.switchedLevel p z)
    (adoptZone p old z s).zone p z = some (
      if zn.state = .held then taken else s.plans p z { taken with latest := none }) := by
  have set (y : Zone) : (s.setZone p z (some y)).zone p z = some y := by simp [State.zone]
  unfold adoptZone
  dsimp only
  rw [if_pos hz, h]
  dsimp only
  split
  · exact set _
  · exact plan_zone_eq hd z _

end AdoptZone

/-- From `s` to `u` the zones other than `z` alone have acted: what `z` reads is as it was. -/
structure ZoneReady (p : Fin 4) (z : Fin 5) (s u : State) : Prop where
  output : SameButOutput s u
  zone : u.zone p z = s.zone p z
  trips : u.trips = s.trips
  channels : ∀ k ∈ s.circuits p, k.cfg.zone = some z →
    (u.channel k.cfg.channel).hand = (s.channel k.cfg.channel).hand ∧
      (u.channel k.cfg.channel).level = (s.channel k.cfg.channel).level

namespace ZoneReady

variable {p : Fin 4} {z : Fin 5} {s u : State}

theorem circuits (h : ZoneReady p z s u) : u.circuits p = s.circuits p := by
  rw [State.circuits, State.set, h.output.active]
  rfl

/-- Another zone's plan leaves what `z` reads. -/
theorem plan {y : Fin 5} (hy : y ≠ z) (hd : Distinct (s.circuits p)) :
    KeptByPlan p y (fun k => k ∈ s.circuits p) (ZoneReady p z s) := by
  have aim (k : Circuit) (t : Option Nat) (u : State) (h : ZoneReady p z s u) :
      ZoneReady p z s
        (u.setChannel k.cfg.channel { u.channel k.cfg.channel with target := t }) := by
    refine ⟨h.output, h.zone, h.trips, fun j hj hjz => ?_⟩
    by_cases hc : k.cfg.channel = j.cfg.channel
    · rw [← hc, State.channel, State.setChannel_channels, rd_wr_self, hc]
      exact h.channels j hj hjz
    · rw [State.channel, State.setChannel_channels, rd_wr_of_ne _ _ hc]
      exact h.channels j hj hjz
  have scope (u : State) (h : ZoneReady p z s u) : ∀ k ∈ u.circuits p, k ∈ s.circuits p :=
    fun k hk => h.circuits ▸ hk
  refine
    { scope := scope, zone := fun v u h => ⟨h.output, ?_, h.trips, h.channels⟩
      aim := fun k t u _ _ _ h => aim k t u h
      give := giveSwitched_of_writes scope (fun k t u _ _ h => aim k t u h)
        fun k level u hk hky _ _ _ h => ⟨?_, ?_, ?_, fun j hj hjz => ?_⟩ }
  · have hread : (u.setZone p y (some v)).zone p z = u.zone p z := by simp [State.zone, hy]
    exact hread.trans h.zone
  · exact h.output.trans (command_same k level u).output
  · rw [State.zone, command_zones]
    exact h.zone
  · exact (command_same k level u).trips.trans h.trips
  · rw [command_channel_of_ne (c := j.cfg.channel)]
    · exact h.channels j hj hjz
    · intro hc
      obtain rfl := hd j hj k hk hc
      exact hy (Option.some.inj (hky.symm.trans hjz))

theorem adoptZone {y : Fin 5} (hy : y ≠ z) (hd : Distinct (s.circuits p)) (old : PortalSet)
    (h : ZoneReady p z s u) : ZoneReady p z s (adoptZone p old y u) := by
  refine (plan hy hd).adoptZone (fun v w hw => ⟨hw.output, ?_, hw.trips, hw.channels⟩) old u h
  have hread : (w.setZone p y v).zone p z = w.zone p z := by simp [State.zone, hy]
  exact hread.trans hw.zone

section Reads

variable (h : ZoneReady p z s u)
include h

theorem set : u.set p = s.set p := by rw [State.set, h.output.active]

theorem plans : u.plans p z = s.plans p z := by
  have hr : u.reached p z = s.reached p z := reached_of_agrees h.output.active fun k hk => by
    obtain ⟨hkc, hkz, -⟩ := mem_dimmed.mp hk
    obtain ⟨hh, hl⟩ := h.channels k hkc hkz
    exact ⟨hh, fun _ => hl⟩
  funext zn
  rw [State.plans, State.plans, hr, State.boostShare, State.boostShare, overlapEnd, overlapEnd, State.record,
    h.output.active, h.output.now]

theorem zoneLevel : u.zoneLevel p z = s.zoneLevel p z := by
  rw [State.zoneLevel, State.zoneLevel, h.set, State.arbiter, h.output.arbiters]

theorem switchedLevel : u.switchedLevel p z = s.switchedLevel p z := by
  rw [State.switchedLevel, State.switchedLevel, h.set]
  cases hk : (s.set p).switchedOf p z with
  | none => rfl
  | some k =>
    obtain ⟨hkc, hkz, -⟩ := switchedOf_spec hk
    dsimp only
    rw [(h.channels k hkc hkz).2]

theorem held : (u.tripped p || u.tripsNext p) = (s.tripped p || s.tripsNext p) := by
  simp only [State.tripped, State.tripsNext, State.fireLatches, State.sourcesOf, State.linePresent,
    State.baseOf, State.tripUnit, State.record, h.trips, h.output.base, h.output.active]

end Reads

end ZoneReady

section Zone

variable {p : Fin 4} {x : PendingSet} {s : State}

theorem adoptTested_set : (adoptTested p x s).set p = x.set := by
  rw [State.set, adoptTested_output.active]
  exact adoptResolved_sets p x s

theorem adoptTested_zone (z : Fin 5) : (adoptTested p x s).zone p z = s.zone p z := by
  have tested (u : State) : (testLineOnly p u).zones = u.zones := by
    have set (v : State) (y : TripUnit) (h : v.zones = u.zones) : (v.setTrip p y).zones = u.zones := h
    have told (v : State) (e : Event) (h : v.zones = u.zones) : (postAll e v).zones = u.zones := h
    unfold testLineOnly
    dsimp only
    split
    · rfl
    · exact set _ _ (told _ _ rfl)
  rw [State.zone, adoptTested, tested, adoptSettled_rest.zones, (adoptResolved_daylight p x s).zones]
  rfl

variable (hdnew : Distinct (x.set.circuits p)) {z : Fin 5} (hz : rd x.set.record.zones z = true)
include hdnew hz

/-- What the zones' acts leave of a present zone, if the zone's own act leaves it in states that read as
after the channels. -/
theorem adoptLighted_zone {v : Option Zone}
    (h : ∀ u, ZoneReady p z (adoptTested p x s) u → Distinct (u.circuits p) →
      rd (u.record p).zones z = true → (adoptZone p (s.set p) z u).zone p z = v) :
    (adoptLighted p x s).zone p z = v := by
  have hd : Distinct ((adoptTested p x s).circuits p) := adoptTested_circuits (p := p) (x := x) ▸ hdnew
  rw [adoptLighted_eq]
  refine forEach_once (P := fun u => u.zone p z = v) (Q := ZoneReady p z (adoptTested p x s))
    allZones_nodup (mem_allZones z) (fun u hu => ?_)
    (fun y _ hy u hu => hu.adoptZone hy hd (s.set p))
    (fun y _ hy u hu => ?_) (adoptTested p x s) ⟨rfl, rfl, rfl, fun _ _ _ => ⟨rfl, rfl⟩⟩
  · refine h u hu (hu.circuits ▸ hd) ?_
    rw [State.record]
    exact (congrArg (fun y : PortalSet => rd y.record.zones z) (hu.set.trans adoptTested_set)).trans hz
  · rw [adoptZone_zone_of_ne hy.symm]
    exact hu

theorem adoptLighted_zone_of_none (h : s.zone p z = none) :
    let t := adoptTested p x s
    (adoptLighted p x s).zone p z = some (
      if t.tripped p || t.tripsNext p then Zone.fresh (t.zoneLevel p z) (t.switchedLevel p z) true
      else t.plans p z (Zone.fresh (t.zoneLevel p z) (t.switchedLevel p z) false)) := by
  intro t
  refine adoptLighted_zone hdnew hz fun u hu hd hp => ?_
  rw [adoptZone_of_none hd hp (hu.zone.trans ((adoptTested_zone z).trans h)), hu.held, hu.zoneLevel,
    hu.switchedLevel, hu.plans]

theorem adoptLighted_zone_of_some {zn : Zone} (h : s.zone p z = some zn) :
    let t := adoptTested p x s
    let taken := zn.taken (t.zoneLevel p z) (keptSwitched (s.set p) x.set p z) (t.switchedLevel p z)
    (adoptLighted p x s).zone p z = some (
      if zn.state = .held then taken else t.plans p z { taken with latest := none }) := by
  intro t taken
  refine adoptLighted_zone hdnew hz fun u hu hd hp => ?_
  have hset : u.set p = x.set := hu.set.trans adoptTested_set
  have heq := adoptZone_of_some hd hp (hu.zone.trans ((adoptTested_zone z).trans h)) (s.set p)
  dsimp only at heq
  rw [heq, hset, hu.zoneLevel, hu.switchedLevel, hu.plans]

end Zone

end Sys2Proof.Machine
end

section
namespace Sys2Proof.Machine

/-! ### The zones of a portal that leaves TRIPPED (R97, R120) -/

section Exit

variable {p : Fin 4} {s : State} (hd : Distinct (s.circuits p))

/-- A portal that plans its zones as it leaves TRIPPED, its DIMMED channels as they were. -/
structure LeavingTrip (p : Fin 4) (z : Fin 5) (s u : State) : Prop where
  active : u.active = s.active
  now : u.now = s.now
  agrees : Agrees (s.dimmed p z) s u

theorem LeavingTrip.plans {z : Fin 5} {u : State} (h : LeavingTrip p z s u) :
    u.plans p z = s.plans p z := by
  funext zn
  rw [State.plans, State.plans, reached_of_agrees h.active h.agrees, State.boostShare, State.boostShare,
    overlapEnd, overlapEnd, State.record, h.active, h.now]

include hd in
theorem LeavingTrip.leaveHeld {z y : Fin 5} {u : State} (h : LeavingTrip p z s u) :
    LeavingTrip p z s (leaveHeld p y u) := by
  cases hy : u.zone p y with
  | none => rwa [leaveHeld_of_none hy]
  | some zn =>
    rw [leaveHeld_of_some hy]
    obtain ⟨ha, hg⟩ := (agreesPlan hd z y).plan { zn with switched := (u.set p).failOn p y } u
      ⟨h.active, h.agrees⟩
    obtain ⟨hn, -⟩ := plan_keeps (quietLight p u) y { zn with switched := (u.set p).failOn p y } u ⟨rfl, rfl⟩
    exact ⟨ha, hn.trans h.now, hg⟩

include hd in
theorem LeavingTrip.leaveFailLevel {z : Fin 5} {u : State} {k : Circuit} (hk : k ∈ s.circuits p)
    (h : LeavingTrip p z s u) : LeavingTrip p z s (leaveFailLevel k u) := by
  have commanded (level : Nat)
      (hc : ∀ j ∈ s.dimmed p z, k.cfg.channel = j.cfg.channel → (u.channel j.cfg.channel).hand ≠ none) :
      LeavingTrip p z s (command k level u) := by
    refine ⟨(command_active _ _ _).trans h.active, (command_same k level u).now.trans h.now, fun j hj => ?_⟩
    by_cases hkj : k.cfg.channel = j.cfg.channel
    · obtain ⟨hh, -⟩ := h.agrees j hj
      have hne := hc j hj hkj
      rw [← hkj, command_channel, hkj]
      exact ⟨hh, fun hn => absurd (hh.trans hn) hne⟩
    · rw [command_channel_of_ne hkj]
      exact h.agrees j hj
  unfold Machine.leaveFailLevel
  split
  · next y hy => exact commanded _ fun j _ hkj => by rw [← hkj, hy]; exact Option.some_ne_none y
  · unfold driveSwitched
    dsimp only
    split
    · next hsw =>
      refine commanded _ fun j hj hkj => ?_
      obtain ⟨hjc, -, hjd⟩ := mem_dimmed.mp hj
      obtain rfl := hd j hjc k hk hkj
      exact absurd (hjd.symm.trans hsw.1) Bool.false_ne_true
    · exact h

include hd in
/-- The zones and the DIMMED channels of a portal that leaves TRIPPED. -/
theorem exitTrip_zone (z : Fin 5) :
    (∀ zn, s.zone p z = some zn →
      (exitTrip p s).zone p z = some (s.plans p z { zn with switched := (s.set p).failOn p z })) ∧
      LeavingTrip p z s (exitTrip p s) := by
  have clear : LeavingTrip p z s
      (postAll (.tripCleared p) (s.setTrip p { s.tripUnit p with overlay := false })) :=
    ⟨rfl, rfl, .of_channels rfl⟩
  have hzone : (postAll (.tripCleared p) (s.setTrip p { s.tripUnit p with overlay := false })).zone p z =
      s.zone p z := rfl
  constructor
  · intro zn hz
    rw [State.zone, exitTrip_zones]
    generalize postAll (.tripCleared p) (s.setTrip p { s.tripUnit p with overlay := false }) = u
      at clear hzone
    refine forEach_once (f := leaveHeld p)
      (P := fun u => u.zone p z = some (s.plans p z { zn with switched := (s.set p).failOn p z }))
      (Q := fun u => u.zone p z = some zn ∧ LeavingTrip p z s u)
      allZones_nodup (mem_allZones z) (fun u hu => ?_)
      (fun y _ hy u hu => ⟨(leaveHeld_zone_of_ne hy.symm u).trans hu.1, hu.2.leaveHeld hd⟩)
      (fun y _ hy u hu => (leaveHeld_zone_of_ne hy.symm u).trans hu) u ⟨hzone.trans hz, clear⟩
    have hset : u.set p = s.set p := by rw [State.set, hu.2.active]
    have hdu : Distinct (u.circuits p) := by
      rw [State.circuits, hset]
      exact hd
    rw [leaveHeld_of_some hu.1, plan_zone_eq hdu, hset, hu.2.plans]
  · unfold exitTrip
    dsimp only
    generalize postAll (.tripCleared p) (s.setTrip p { s.tripUnit p with overlay := false }) = u at clear
    have planned : LeavingTrip p z s (forEach allZones (leaveHeld p) u) :=
      forEach_keeps (fun y _ v hv => hv.leaveHeld hd) _ clear
    generalize forEach allZones (leaveHeld p) u = v at planned
    refine forEach_keeps (P := LeavingTrip p z s) (fun k hk w hw => hw.leaveFailLevel hd ?_) _ planned
    rw [State.circuits, State.set, planned.active] at hk
    exact hk

end Exit

/-! ### The zones of an adoption, by the overlay before and after it -/

section Trips

variable {p : Fin 4} {x : PendingSet} {s : State} (hdnew : Distinct (x.set.circuits p))

theorem zone_of_lighting {s u : State} (h : u.lighting = s.lighting) (p : Fin 4) (z : Fin 5) :
    u.zone p z = s.zone p z := by
  have hz : u.zones = s.zones := congrArg Prod.fst h
  rw [State.zone, hz]

theorem channels_of_lighting {s u : State} (h : u.lighting = s.lighting) : u.channels = s.channels :=
  congrArg (fun l => l.2.1) h

theorem lines_of_lighting {s u : State} (h : u.lighting = s.lighting) : u.lines = s.lines :=
  congrArg (fun l => l.2.2) h

include hdnew in
theorem adoptLighted_agrees (z : Fin 5) :
    Agrees ((adoptTested p x s).dimmed p z) (adoptTested p x s) (adoptLighted p x s) := by
  have hd : Distinct ((adoptTested p x s).circuits p) := adoptTested_circuits (p := p) (x := x) ▸ hdnew
  exact (adoptLighted_keeps
    (P := fun u => u.active = (adoptTested p x s).active ∧
      Agrees ((adoptTested p x s).dimmed p z) (adoptTested p x s) u)
    (fun y => agreesPlan hd z y) (fun _ _ _ h => h) ⟨rfl, .of_channels rfl⟩).2

theorem adoptTripped_active : (adoptTripped p x s).active = (adoptTested p x s).active :=
  (adoptTripped_output p x s).active.trans adoptTested_output.active.symm

section SameButTrips

variable {s u : State} (h : SameButTrips s u)
include h

theorem SameButTrips.lighting : u.lighting = s.lighting := by
  have e := congrArg State.lighting h
  exact e

theorem SameButTrips.active : u.active = s.active := by
  have e := congrArg State.active h
  exact e

theorem SameButTrips.now : u.now = s.now := by
  have e := congrArg State.now h
  exact e

end SameButTrips

/-- The state in which the recomputation of an adoption finds the lighting. -/
theorem adoptTrip_state {t : State}
    (ht : SameButTrips (adoptTrip p (s.record p) (adoptLighted p x s)) t) :
    t.lighting = (adoptLighted p x s).lighting ∧ t.active = (adoptTested p x s).active ∧
      t.now = (adoptTested p x s).now := by
  have hout : SameButOutput (adoptResolved p x s) (adoptTrip p (s.record p) (adoptLighted p x s)) :=
    adoptTrip_keeps (SameButOutput.trips p _) (s.record p) _ (adoptLighted_output p x s)
  exact ⟨ht.lighting.trans (adoptTrip_lighting p _ _).1,
    ht.active.trans (hout.active.trans adoptTested_output.active.symm),
    ht.now.trans (hout.now.trans adoptTested_output.now.symm)⟩

/-- A portal that becomes TRIPPED holds its zones as their acts left them. -/
theorem adoptTripped_zone_of_enters (hs : s.tripped p = false) (hu : (adoptTripped p x s).tripped p = true)
    (z : Fin 5) :
    (adoptTripped p x s).zone p z = ((adoptLighted p x s).zone p z).map Zone.held := by
  have htrip : (adoptTrip p (s.record p) (adoptLighted p x s)).tripped p = s.tripped p :=
    (adoptTrip_lighting p _ _).2.trans (adoptLighted_tripped p x s)
  rcases recompute_lighting p (adoptTrip p (s.record p) (adoptLighted p x s)) with
    ⟨h, -⟩ | ⟨t, ht, ⟨-, -, h⟩ | ⟨h, -, -⟩⟩
  · exact absurd ((hu.symm.trans (h.trans htrip)).trans hs).symm Bool.false_ne_true
  · rw [adoptTripped, zone_of_lighting h, enterTrip_zone, zone_of_lighting (adoptTrip_state ht).1]
  · exact absurd (hs.symm.trans (htrip.symm.trans h)) Bool.false_ne_true

include hdnew in
/-- A portal that leaves TRIPPED plans its zones from the fail levels. -/
theorem adoptTripped_zone_of_exits (hs : s.tripped p = true)
    (hu : (adoptTripped p x s).tripped p = false) (z : Fin 5) :
    (∀ zn, (adoptLighted p x s).zone p z = some zn → (adoptTripped p x s).zone p z =
      some ((adoptTested p x s).plans p z { zn with switched := x.set.failOn p z })) ∧
      Agrees ((adoptTested p x s).dimmed p z) (adoptTested p x s) (adoptTripped p x s) := by
  have htrip : (adoptTrip p (s.record p) (adoptLighted p x s)).tripped p = s.tripped p :=
    (adoptTrip_lighting p _ _).2.trans (adoptLighted_tripped p x s)
  rcases recompute_lighting p (adoptTrip p (s.record p) (adoptLighted p x s)) with
    ⟨h, -⟩ | ⟨t, ht, ⟨h, -, -⟩ | ⟨-, -, h⟩⟩
  · exact absurd (hu.symm.trans (h.trans (htrip.trans hs))) Bool.false_ne_true
  · exact absurd (h.symm.trans (htrip.trans hs)) Bool.false_ne_true
  · obtain ⟨hlight, hactive, hnow⟩ := adoptTrip_state ht
    have hset : t.set p = x.set := by
      rw [State.set, hactive]
      exact adoptTested_set
    have hd : Distinct (t.circuits p) := by
      rw [State.circuits, hset]
      exact hdnew
    have hagree : Agrees ((adoptTested p x s).dimmed p z) (adoptTested p x s) t :=
      (adoptLighted_agrees hdnew z).trans (.of_channels (channels_of_lighting hlight))
    have hleaving : LeavingTrip p z (adoptTested p x s) t := ⟨hactive, hnow, hagree⟩
    obtain ⟨hzone, -, -, hexit⟩ := exitTrip_zone hd z
    rw [dimmed_of_active hactive] at hexit
    refine ⟨fun zn hz => ?_, hagree.trans (hexit.trans (.of_channels (channels_of_lighting h)))⟩
    rw [adoptTripped, zone_of_lighting h, hzone zn ((zone_of_lighting hlight p z).trans hz), hset,
      hleaving.plans]

include hdnew in
/-- Unless a portal becomes TRIPPED, what its zones plan is what they would plan once it has adopted. -/
theorem adoptTripped_plans (h : s.tripped p = true ∨ (adoptTripped p x s).tripped p = false) (z : Fin 5) :
    (adoptTripped p x s).plans p z = (adoptTested p x s).plans p z := by
  have hagree : Agrees ((adoptTested p x s).dimmed p z) (adoptTested p x s) (adoptTripped p x s) := by
    by_cases hsame : (adoptTripped p x s).tripped p = s.tripped p
    · exact (adoptLighted_agrees hdnew z).trans
        (.of_channels (channels_of_lighting (adoptTripped_lighting_of_same hsame)))
    · cases hs : s.tripped p with
      | false =>
        rw [hs] at h hsame
        rcases h with h | h
        · exact absurd h Bool.false_ne_true
        · exact absurd h hsame
      | true =>
        rw [hs] at hsame
        exact (adoptTripped_zone_of_exits hdnew hs (Bool.eq_false_iff.mpr hsame) z).2
  have hleaving : LeavingTrip p z (adoptTested p x s) (adoptTripped p x s) :=
    ⟨adoptTripped_active, (adoptTripped_output p x s).now.trans adoptTested_output.now.symm, hagree⟩
  exact hleaving.plans

end Trips

end Sys2Proof.Machine
end

section
namespace Sys2Proof.Machine

/-! ### What a zone reads as it takes a set (R5, R98) -/

section Reads

variable {p : Fin 4} {x : PendingSet} {s : State}

/-- An untripped portal's channel of a zone has nothing to settle. -/
theorem settlePass_of_zone {k : Circuit} {z : Fin 5} {u : State} (h : u.tripped k.portal = false)
    (hz : k.cfg.zone = some z) : settlePass k u = u := by
  unfold settlePass
  dsimp only
  rw [h, hz, if_neg Bool.false_ne_true, if_neg (Option.some_ne_none z)]

/-- Whether a circuit of the new set is one of the old one's, both SWITCHED, as a test. -/
def staysOn (old : List Circuit) (k : Circuit) : Bool := old.any fun j =>
  j.cfg.channel == k.cfg.channel && j.addr == k.addr && j.cfg.switched

theorem staysOn_iff (old : List Circuit) {k : Circuit} (hk : k.cfg.switched = true) :
    staysOn old k = true ↔ ∃ j ∈ old, j.cfg.channel = k.cfg.channel ∧ SameDriver j k := by
  simp only [staysOn, List.any_eq_true, SameDriver, Bool.and_eq_true, beq_iff_eq, hk, and_assoc]

/-- Whether a zone takes its switched channel to be on. -/
def State.takesOn (s : State) (p : Fin 4) (new : PortalSet) (z : Fin 5) : Bool :=
  (new.switchedOf p z).any fun k =>
    if s.tripped p then k.cfg.failLevel != 0
    else staysOn (s.circuits p) k && (s.channel k.cfg.channel).level.getD 0 != 0

variable (hdold : Distinct ((s.set p).circuits p)) (hdnew : Distinct (x.set.circuits p))
include hdold hdnew

/-- The commanded level of a SWITCHED channel that has joined under an untripped portal. -/
theorem adoptJoined_level_of_switched {k : Circuit} (hk : k ∈ x.set.circuits p)
    (hsw : k.cfg.switched = true) (ht : s.tripped p = false) :
    ((adoptJoined p x s).channel k.cfg.channel).level =
      if staysOn (s.circuits p) k then (s.channel k.cfg.channel).level else some 0 := by
  have staysIff := staysOn_iff (s.circuits p) hsw
  rcases joins_or_mem ((s.set p).circuits p) k with hnone | ⟨j, hj, hc⟩
  · rw [adoptJoined_channel_of_joins hdnew hk hnone, if_neg]
    · rfl
    · rintro hstay
      obtain ⟨i, hi, hic, -⟩ := staysIff.mp hstay
      exact hnone i hi hic
  · by_cases hsame : SameDriver j k
    · rw [if_pos (staysIff.mpr ⟨j, hj, hc, hsame⟩)]
      by_cases hz : k.cfg.zone = j.cfg.zone
      · rw [adoptJoined_channel_of_kept hdold hdnew hk hj hc.symm hsame hz]
        dsimp only
        rw [ht, if_neg Bool.false_ne_true, funext (raised_of_switched hsw)]
        exact Option.map_id' ..
      · rw [adoptJoined_channel_of_moved hdold hdnew hk hj hc.symm hsame hz]
    · rw [adoptJoined_channel_of_replaced hdold hdnew hk hj hc.symm hsame, if_neg]
      · rfl
      · rintro hstay
        obtain ⟨i, hi, hic, hsi⟩ := staysIff.mp hstay
        obtain rfl := hdold j hj i hi (hic.trans hc.symm)
        exact hsame hsi

/-- The switched target that a zone takes, by what its switched channel was. -/
theorem adoptTested_switchedLevel (z : Fin 5) :
    (adoptTested p x s).switchedLevel p z = s.takesOn p x.set z := by
  rw [State.switchedLevel, adoptTested_set, State.takesOn]
  cases hk : x.set.switchedOf p z with
  | none => rfl
  | some k =>
    obtain ⟨hkc, hkz, hsw⟩ := switchedOf_spec hk
    have hp := circuit_portal hkc
    dsimp only [Option.any_some]
    cases ht : s.tripped p with
    | true =>
      have hl : ((adoptTested p x s).channel k.cfg.channel).level = some k.cfg.failLevel :=
        adoptTested_channel hdnew hkc (P := fun y => y.level = some k.cfg.failLevel) fun u _ hut => by
          rw [settlePass_level_of_tripped (hp.symm ▸ hut.trans ht), raised_of_switched hsw]
      rw [hl]
      rfl
    | false =>
      have hl : ((adoptTested p x s).channel k.cfg.channel).level =
          ((adoptJoined p x s).channel k.cfg.channel).level :=
        adoptTested_channel hdnew hkc
          (P := fun y => y.level = ((adoptJoined p x s).channel k.cfg.channel).level) fun u hu hut => by
            rw [settlePass_of_zone (hp.symm ▸ hut.trans ht) hkz, hu]
      rw [hl, adoptJoined_level_of_switched hdold hdnew hkc hsw ht]
      cases staysOn (s.circuits p) k <;> rfl

end Reads

/-- Whether a zone's switched channel is kept, both circuits being SWITCHED. -/
theorem keptSwitched_eq (old new : PortalSet) (p : Fin 4) (z : Fin 5) :
    keptSwitched old new p z = (old.switchedOf p z).any fun a => (new.switchedOf p z).any fun b =>
      a.cfg.channel == b.cfg.channel && a.addr == b.addr := by
  unfold keptSwitched
  cases ha : old.switchedOf p z with
  | none => rfl
  | some a =>
    cases hb : new.switchedOf p z with
    | none => rfl
    | some b =>
      obtain ⟨-, -, hsa⟩ := switchedOf_spec ha
      obtain ⟨-, -, hsb⟩ := switchedOf_spec hb
      simp [Circuit.sameDriver, hsa, hsb]

section Next

variable (p : Fin 4)

theorem adoptTrip_lineDown (old : PortalRecord) (s : State) :
    ((adoptTrip p old s).tripUnit p).lineDown = (s.tripUnit p).lineDown := by
  have written (u : State) (y : TripUnit) : (u.setTrip p y).tripUnit p = y := rd_wr_self _ _ _
  have reread (c : Prop) [Decidable c] (level : Bool) (u : State)
      (hu : u = if c then s.setTrip p ((s.tripUnit p).change level s.now) else s) :
      (u.tripUnit p).lineDown = (s.tripUnit p).lineDown := by
    subst hu
    split
    · rw [written]
      rfl
    · rfl
  have latched (u : State) : ((latchFire p u).tripUnit p).lineDown = (u.tripUnit p).lineDown := by
    unfold latchFire
    split
    · rw [written]
    · rfl
  unfold adoptTrip
  dsimp only
  split
  · rw [written]
    exact reread _ _ _ rfl
  · exact (latched _).trans (reread _ _ _ rfl)

/-- The portal carries the overlay after the Trip Unit has acted if a source is then present. -/
theorem adoptTrip_sources (old : PortalRecord) (s : State) :
    ((adoptTrip p old s).sourcesOf p != TripSet.empty) = s.tripsNext p := by
  have hout : SameButOutput s (adoptTrip p old s) := adoptTrip_keeps (SameButOutput.trips p s) old s rfl
  have hline := adoptTrip_lineDown p old s
  obtain ⟨-, hun, hconf⟩ := adoptTrip_tripUnit p old s
  obtain ⟨⟨hd, hf, ho, -⟩, -⟩ :=
    reread_spec (s.tripUnit p) (old.activeLow != (s.record p).activeLow) (s.fireRead p) s.now
  rw [hd, hf, ho] at hconf
  have hrec : (adoptTrip p old s).record p = s.record p := by rw [State.record, hout.active]
  have hbase : (adoptTrip p old s).baseOf p = s.baseOf p := by rw [State.baseOf, hout.base]
  rw [State.tripsNext, State.fireLatches, State.sourcesOf, State.sourcesOf, State.linePresent,
    State.linePresent, hrec, hbase, hline]
  by_cases hb : s.baseOf p = .unconfigured
  · obtain ⟨hfire, horder⟩ := hun hb
    rw [hfire, horder, hb]
    simp [TripSet.empty]
  · obtain ⟨horder, hfire⟩ := hconf hb
    rw [horder, hfire, bne_iff_ne.mpr hb]
    cases (s.tripUnit p).debounced <;> cases (s.record p).fireArmed <;>
      cases (s.tripUnit p).fireLatch <;> simp [TripSet.empty]

end Next

end Sys2Proof.Machine
end

section
namespace Sys2Proof.Machine

/-! ### What each zone of the new set holds after an adoption (R5, R97, R98) -/

section Next

variable {p : Fin 4} {x : PendingSet} {s : State}

theorem adoptZone_trips (old : PortalSet) (z : Fin 5) (u : State) :
    (adoptZone p old z u).trips = u.trips := by
  have planned (zn : Zone) := plan_keeps (tripsLight p u.trips) z zn u rfl
  unfold adoptZone
  dsimp only
  split
  · split
    · split
      · rfl
      · exact planned _
    · split
      · rfl
      · exact planned _
  · rfl

theorem adoptLighted_trips : (adoptLighted p x s).trips = (adoptTested p x s).trips := by
  rw [adoptLighted_eq]
  exact forEach_keeps (P := fun u => u.trips = (adoptTested p x s).trips)
    (fun z _ u hu => (adoptZone_trips _ z u).trans hu) _ rfl

/-- What a zone that has just become present foresees is what the Trip Unit does. -/
theorem adoptTested_tripsNext (hs : TripsWf s) :
    (adoptTested p x s).tripsNext p = (adoptTripped p x s).tripped p := by
  have hlit : (adoptLighted p x s).tripsNext p = (adoptTested p x s).tripsNext p := by
    have hl := adoptLighted_output p x s
    have ht := adoptTested_output (p := p) (x := x) (s := s)
    simp only [State.tripsNext, State.fireLatches, State.sourcesOf, State.linePresent,
      State.baseOf, State.tripUnit, State.record, adoptLighted_trips, hl.base, hl.active, ht.base, ht.active]
  have overlay (u : State) (v : TripUnit) (h : v = (u.tripUnit p).recomputed (u.sourcesOf p) u.tenths) :
      (u.sourcesOf p != TripSet.empty) = v.overlay := by
    rw [h]
    rfl
  rw [← hlit, ← adoptTrip_sources p (s.record p)]
  exact overlay _ _ (adoptTripped_tripUnit p x hs)

end Next

/-- A zone without a latest target enters HELD with its working one. -/
theorem held_of_latest {zn : Zone} (h : zn.latest = none) :
    zn.held = Zone.fresh zn.working zn.switched true := by
  rw [Zone.held, Zone.takeLatest, h]
  rfl

section Planned

variable (zn : Zone) (b now overlapEnd : Nat) (reached : Nat → Bool)

theorem planned_targets : (zn.planned b reached now overlapEnd).working = zn.working ∧
    (zn.planned b reached now overlapEnd).latest = zn.latest := by
  unfold Zone.planned
  dsimp only
  repeat' split
  all_goals exact ⟨rfl, rfl⟩

/-- The switched target that a plan leaves. -/
theorem planned_switched : (zn.planned b reached now overlapEnd).switched =
    if b = 0 then false else if needsBoost b zn.working then true else zn.switched := by
  unfold Zone.planned
  dsimp only
  split
  · rfl
  · split
    · split
      · rfl
      · next hsw =>
        have hon : zn.switched = true := (Bool.not_eq_false _).mp hsw
        split
        · exact hon
        · split
          · exact hon
          · exact hon
    · split
      · split <;> rfl
      · rfl

/-- A zone that plans and then enters HELD (R97). -/
theorem held_planned (h : zn.latest = none) : (zn.planned b reached now overlapEnd).held =
    Zone.fresh zn.working
      (if b = 0 then false else if needsBoost b zn.working then true else zn.switched) true := by
  obtain ⟨hworking, hlatest⟩ := planned_targets zn b now overlapEnd reached
  rw [held_of_latest (hlatest.trans h), hworking, planned_switched]

end Planned

section Zones

variable {p : Fin 4} {x : PendingSet} {s : State} (hdold : Distinct ((s.set p).circuits p))
  (hdnew : Distinct (x.set.circuits p)) {z : Fin 5} (hz : rd x.set.record.zones z = true)

/-- A present zone as it takes the set `x`. -/
def State.takes (s : State) (p : Fin 4) (x : PendingSet) (z : Fin 5) (zn : Zone) : Zone :=
  zn.taken ((adoptTested p x s).zoneLevel p z) (keptSwitched (s.set p) x.set p z) (s.takesOn p x.set z)

/-- A zone that the set `x` makes present. -/
def State.starts (s : State) (p : Fin 4) (x : PendingSet) (z : Fin 5) (held : Bool) : Zone :=
  Zone.fresh ((adoptTested p x s).zoneLevel p z) (s.takesOn p x.set z) held

include hdold hdnew hz

theorem adoptLighted_takes {zn : Zone} (h : s.zone p z = some zn) :
    (adoptLighted p x s).zone p z = some (
      if zn.state = .held then s.takes p x z zn
      else (adoptTested p x s).plans p z { s.takes p x z zn with latest := none }) := by
  have heq := adoptLighted_zone_of_some hdnew hz h
  dsimp only at heq
  rw [adoptTested_switchedLevel hdold hdnew] at heq
  exact heq

theorem adoptLighted_starts (hs : TripsWf s) (h : s.zone p z = none) :
    (adoptLighted p x s).zone p z = some (
      if s.tripped p || (adoptTripped p x s).tripped p then s.starts p x z true
      else (adoptTested p x s).plans p z (s.starts p x z false)) := by
  have heq := adoptLighted_zone_of_none hdnew hz h
  dsimp only at heq
  rw [adoptTested_switchedLevel hdold hdnew, adoptTested_tripped, adoptTested_tripsNext hs] at heq
  exact heq

end Zones

end Sys2Proof.Machine
end

section
namespace Sys2Proof.Machine

/-! ### The zones of the new set (R5, R97, R98) -/

section Adopted

variable {p : Fin 4} {x : PendingSet} {s : State}

theorem adopt_tripped : (adopt p x s).tripped p = (adoptTripped p x s).tripped p := by
  rw [State.tripped, State.tripUnit, (adopt_report p x s).trips]
  rfl

theorem adopt_zone (z : Fin 5) : (adopt p x s).zone p z = (adoptTripped p x s).zone p z := by
  rw [State.zone, (adopt_report p x s).zones]

theorem adopt_level (z : Fin 5) : (adoptTested p x s).zoneLevel p z =
    rd (x.set.row ((adopt p x s).arbiter p).effective).levels z := by
  have harb : (adopt p x s).arbiters = (adoptTested p x s).arbiters :=
    (adopt_report p x s).arbiters.trans
      ((adoptTripped_output p x s).arbiters.trans adoptTested_output.arbiters.symm)
  rw [State.zoneLevel, adoptTested_set, State.arbiter, ← harb]

theorem adoptTested_boostShare (z : Fin 5) :
    (adoptTested p x s).boostShare p z = rd x.set.record.boost z := by
  rw [State.boostShare, State.record]
  exact congrArg (fun y : PortalSet => rd y.record.boost z) adoptTested_set

variable (hdnew : Distinct (x.set.circuits p))

include hdnew in
/-- What a zone plans once its portal has adopted, unless the portal becomes TRIPPED. -/
theorem plan_adopt (h : s.tripped p = true ∨ (adoptTripped p x s).tripped p = false) (z : Fin 5)
    (zn : Zone) : (plan p z zn (adopt p x s)).zone p z = some ((adoptTested p x s).plans p z zn) := by
  have hr := adopt_report p x s
  have hset : (adopt p x s).set p = x.set := by
    rw [State.set, hr.active, adoptTripped_active]
    exact adoptTested_set
  have hd : Distinct ((adopt p x s).circuits p) := by
    rw [State.circuits, hset]
    exact hdnew
  have hplans : (adopt p x s).plans p z = (adoptTripped p x s).plans p z :=
    LeavingTrip.plans ⟨hr.active, hr.now, .of_channels hr.channels⟩
  rw [plan_zone_eq hd, hplans, adoptTripped_plans hdnew h]

variable (hdold : Distinct ((s.set p).circuits p)) {z : Fin 5} (hz : rd x.set.record.zones z = true)
include hdold hdnew hz

/-- A zone that was present, by the overlay before and after the adoption. -/
theorem adopt_zone_of_some {zn : Zone} (h : s.zone p z = some zn) :
    let u := adopt p x s
    let taken := s.takes p x z zn
    let b := rd x.set.record.boost z
    (s.tripped p = false → u.tripped p = false → zn.state ≠ .held →
      u.zone p z = (plan p z { taken with latest := none } u).zone p z) ∧
    (s.tripped p = true → u.tripped p = true → zn.state = .held → u.zone p z = some taken) ∧
    (s.tripped p = false → u.tripped p = true → zn.state ≠ .held →
      u.zone p z = some (Zone.fresh taken.working
        (if b = 0 then false else if needsBoost b taken.working then true else taken.switched) true)) ∧
    (s.tripped p = true → u.tripped p = false → zn.state = .held →
      u.zone p z = (plan p z { taken with switched := x.set.failOn p z } u).zone p z) := by
  intro u taken b
  have hlit := adoptLighted_takes hdold hdnew hz h
  have same (ht : (adoptTripped p x s).tripped p = s.tripped p) :
      (adoptTripped p x s).zone p z = (adoptLighted p x s).zone p z :=
    zone_of_lighting (adoptTripped_lighting_of_same ht) p z
  simp only [u, adopt_zone, adopt_tripped]
  refine ⟨fun hs ht hst => ?_, fun hs ht hst => ?_, fun hs ht hst => ?_, fun hs ht hst => ?_⟩
  · rw [plan_adopt hdnew (Or.inr ht), same (ht.trans hs.symm), hlit, if_neg hst]
  · rw [same (ht.trans hs.symm), hlit, if_pos hst]
  · rw [adoptTripped_zone_of_enters hs ht, hlit, if_neg hst, Option.map_some, State.plans,
      held_planned _ _ _ _ _ rfl, adoptTested_boostShare]
  · rw [plan_adopt hdnew (Or.inl hs)]
    exact (adoptTripped_zone_of_exits hdnew hs ht z).1 _ (hlit.trans (congrArg some (if_pos hst)))

/-- A zone that the new set makes present, by the overlay before and after the adoption. -/
theorem adopt_zone_of_none (hs : TripsWf s) (h : s.zone p z = none) :
    let u := adopt p x s
    (s.tripped p = false → u.tripped p = false →
      u.zone p z = (plan p z (s.starts p x z false) u).zone p z) ∧
    (u.tripped p = true → u.zone p z = some (s.starts p x z true)) ∧
    (s.tripped p = true → u.tripped p = false →
      u.zone p z = (plan p z { s.starts p x z true with switched := x.set.failOn p z } u).zone p z) := by
  intro u
  have hlit := adoptLighted_starts hdold hdnew hz hs h
  have same (ht : (adoptTripped p x s).tripped p = s.tripped p) :
      (adoptTripped p x s).zone p z = (adoptLighted p x s).zone p z :=
    zone_of_lighting (adoptTripped_lighting_of_same ht) p z
  simp only [u, adopt_zone, adopt_tripped]
  refine ⟨fun hs ht => ?_, fun ht => ?_, fun hs ht => ?_⟩
  · rw [plan_adopt hdnew (Or.inr ht), same (ht.trans hs.symm), hlit, hs, ht]
    rfl
  · rw [ht, Bool.or_true, if_pos rfl] at hlit
    cases hs : s.tripped p with
    | true => rw [same (ht.trans hs.symm), hlit]
    | false =>
      rw [adoptTripped_zone_of_enters hs ht, hlit]
      rfl
  · rw [plan_adopt hdnew (Or.inl hs)]
    rw [hs, Bool.true_or, if_pos rfl] at hlit
    exact (adoptTripped_zone_of_exits hdnew hs ht z).1 _ hlit

/-- What each present zone of the new set holds. -/
theorem adopt_adoptedZone (hs : TripsWf s) : AdoptedZone p z x.set s (adopt p x s) := by
  unfold AdoptedZone
  intro level switched kept stays on failed b boost held taken fresh
  have hkept : keptSwitched (s.set p) x.set p z = kept := keptSwitched_eq _ _ _ _
  have hlevel : (adoptTested p x s).zoneLevel p z = level := adopt_level z
  have htakes (zn : Zone) : s.takes p x z zn = taken zn := by
    rw [State.takes, hkept, hlevel]
    rfl
  have hstarts (h : Bool) : s.starts p x z h = Zone.fresh level on h := by
    rw [State.starts, hlevel]
    rfl
  constructor
  · intro zn hzn
    have h := adopt_zone_of_some hdnew hdold hz (Option.mem_def.mp hzn)
    dsimp only at h
    rw [htakes] at h
    exact h
  · intro hzn
    have h := adopt_zone_of_none hdnew hdold hz hs hzn
    dsimp only at h
    rw [hstarts, hstarts] at h
    exact h

end Adopted

end Sys2Proof.Machine
end

section
namespace Sys2Proof.Machine

/-! ### The channel cases of an adoption, clause by clause (O25) -/

section Clauses

variable {p : Fin 4} {x : PendingSet} {s : State}

theorem adopt_channel (c : Fin 32) : (adopt p x s).channel c = (adoptTripped p x s).channel c := by
  rw [State.channel, (adopt_report p x s).channels]

theorem adopt_lampLine (q : Fin 4) : (adopt p x s).lampLine q = (adoptTripped p x s).lampLine q := by
  have refreshed (u : State) : (refreshShadow p u).lines = u.lines := by
    unfold refreshShadow
    dsimp only
    split <;> rfl
  have posted (u : State) (e : Event) : (postAll e u).lines = u.lines := rfl
  rw [State.lampLine, adopt_eq, refreshed, posted]

/-- A portal that is untripped before and after an adoption is left as its zones have acted. -/
theorem adopt_of_untripped (hu : (adopt p x s).tripped p = false) (hs : s.tripped p = false) :
    (∀ c, (adopt p x s).channel c = (adoptLighted p x s).channel c) ∧
      (adopt p x s).lampLine p = (adoptLighted p x s).lampLine p := by
  have hsame : (adoptTripped p x s).tripped p = s.tripped p := (adopt_tripped.symm.trans hu).trans hs.symm
  refine ⟨fun c => (adopt_channel c).trans (adoptTripped_channel_of_same hsame c), ?_⟩
  rw [adopt_lampLine, State.lampLine, lines_of_lighting (adoptTripped_lighting_of_same hsame)]

/-- Hands and farewells stand as the joining pass leaves them. -/
theorem adopt_hand (c : Fin 32) : ((adopt p x s).channel c).hand = ((adoptJoined p x s).channel c).hand ∧
    ((adopt p x s).channel c).farewell = ((adoptJoined p x s).channel c).farewell := by
  rw [adopt_channel]
  exact adoptTripped_hand c

variable (hdold : Distinct ((s.set p).circuits p)) (hdnew : Distinct (x.set.circuits p))
include hdnew

/-- A DIMMED channel of an untripped portal stays at the level that the joining pass leaves it. -/
theorem adopt_level_of_dimmed {j : Circuit} (hj : j ∈ x.set.circuits p)
    (hu : (adopt p x s).tripped p = false) (hs : s.tripped p = false) (hd : j.cfg.switched = false) :
    ((adopt p x s).channel j.cfg.channel).level =
      ((adoptJoined p x s).channel j.cfg.channel).level := by
  rw [(adopt_of_untripped hu hs).1]
  exact adoptLighted_level_of_dimmed hdnew hj hs hd

/-- A portal that stays TRIPPED commands its channels at their fail levels (R13, R99). -/
theorem adopt_level_of_tripped (hs : s.tripped p = true) (hu : (adopt p x s).tripped p = true)
    {j : Circuit} (hj : j ∈ x.set.circuits p) :
    ((adopt p x s).channel j.cfg.channel).level = some (j.cfg.raised j.cfg.failLevel) := by
  rw [adopt_channel, adoptTripped_channel_of_same ((adopt_tripped.symm.trans hu).trans hs.symm)]
  exact adoptLighted_level_of_tripped hdnew hj hs

include hdold

/-- A channel that joins (R13, R137). -/
theorem adopt_joins {j : Circuit} (hj : j ∈ x.set.circuits p)
    (h : ∀ k ∈ (s.set p).circuits p, k.cfg.channel ≠ j.cfg.channel) :
    let u := adopt p x s
    let after := u.lampLine p
    (u.channel j.cfg.channel).hand = none ∧ (u.channel j.cfg.channel).farewell = none ∧
    rd after.stations j.addr = some
      { channel := j.cfg.channel, misses := if (s.lampLine p).down then 3 else 0, status := none } ∧
    (∃ e ∈ after.updates, e.addr = j.addr ∧ e.owner = some j.cfg.channel) ∧
    (u.tripped p = false → s.tripped p = false → j.cfg.switched = false →
      (u.channel j.cfg.channel).level = some 0 ∧
      ∃ e ∈ after.updates, e.addr = j.addr ∧ e.owner = some j.cfg.channel ∧ e.level = 0) ∧
    (u.tripped p = false → s.tripped p = false → j.cfg.switched = true →
      (u.channel j.cfg.channel).level = (u.channel j.cfg.channel).target) := by
  intro u after
  have hjoined := adoptJoined_channel_of_joins hdnew hj h
  have hafter : after = (adoptTripped p x s).lampLine p := adopt_lampLine p
  obtain ⟨hhand, hfarewell⟩ := adopt_hand (p := p) (x := x) (s := s) j.cfg.channel
  rw [hjoined] at hhand hfarewell
  refine ⟨hhand, hfarewell, ?_, ?_, fun hu hs hd => ⟨?_, ?_⟩, fun hu hs hsw => ?_⟩
  · rw [hafter]
    exact adoptTripped_station_of_joins hdold hj h
  · rw [hafter]
    exact adoptTripped_entry_of_joins hdold hj h
  · rw [adopt_level_of_dimmed hdnew hj hu hs hd, hjoined]
    rfl
  · rw [show after = _ from (adopt_of_untripped hu hs).2]
    exact adoptLighted_entry_of_joins hdold hj h hs hd
  · rw [(adopt_of_untripped hu hs).1]
    refine adoptLighted_at_target hdnew hj hs hsw ?_ ?_
    · rw [hjoined]
      rfl
    · rw [hjoined]
      rfl

/-- A channel that leaves, and the leaving side of a replaced one (R13, R137, R138). -/
theorem adopt_leaves {k : Circuit} (hk : k ∈ (s.set p).circuits p) (hl : Leaves (x.set.circuits p) k) :
    let u := adopt p x s
    let line := s.lampLine p
    let after := u.lampLine p
    (u.channel k.cfg.channel).hand = none ∧
    (u.channel k.cfg.channel).farewell = some (p, k.addr) ∧
    (∃ d ∈ after.departed, d.channel = k.cfg.channel ∧ d.addr = k.addr ∧
      (d.replaced = true ↔ ∃ j ∈ x.set.circuits p, j.cfg.channel = k.cfg.channel) ∧
      (d.later = true ↔ ∃ y ∈ line.tx, y.addr = k.addr ∧ y.departing = some k.cfg.channel) ∧
      (∀ t ∈ rd line.stations k.addr, t.channel = k.cfg.channel →
        d.misses = t.misses ∧ d.status = t.status)) ∧
    after.bids (x.set.circuits p) k ∧
    ((∀ j ∈ x.set.circuits p, j.addr ≠ k.addr) → line.carries k.addr k.cfg.channel = true →
      rd after.stations k.addr = none) ∧
    ((∀ j ∈ x.set.circuits p, j.cfg.channel ≠ k.cfg.channel) →
      (u.channel k.cfg.channel).level = (s.channel k.cfg.channel).level ∧
      (u.channel k.cfg.channel).target = (s.channel k.cfg.channel).target) := by
  intro u line after
  have hleft := adoptLeft_channel_of_leaves hdold hk hl
  have hafter : after = (adoptTripped p x s).lampLine p := adopt_lampLine p
  have hjoined : ((adoptJoined p x s).channel k.cfg.channel).hand = none ∧
      ((adoptJoined p x s).channel k.cfg.channel).farewell = some (p, k.addr) := by
    by_cases hnone : ∀ j ∈ x.set.circuits p, j.cfg.channel ≠ k.cfg.channel
    · rw [adoptJoined_channel_of_none hnone, hleft]
      exact ⟨rfl, rfl⟩
    · simp only [not_forall, not_not] at hnone
      obtain ⟨j, hj, hc⟩ := hnone
      rw [← hc, adoptJoined_channel_of_replaced hdold hdnew hj hk hc (hl j hj hc)]
      exact ⟨rfl, rfl⟩
  obtain ⟨hhand, hfarewell⟩ := adopt_hand (p := p) (x := x) (s := s) k.cfg.channel
  refine ⟨hhand.trans hjoined.1, hfarewell.trans hjoined.2, ?_, ?_, fun hfree hcarries => ?_,
    fun hnone => ?_⟩
  · rw [hafter]
    exact adoptTripped_departed hdnew hdold hk hl
  · rw [hafter]
    exact adoptTripped_bids hdnew hdold hk hl
  · rw [hafter]
    exact adoptTripped_station_of_leaves hdnew hdold hk hl hfree hcarries
  · rw [show u.channel k.cfg.channel = _ from adopt_channel _, adoptTripped_channel_of_none hnone, hleft]
    exact ⟨rfl, rfl⟩

section Old

variable {j k : Circuit} (hk : k ∈ (s.set p).circuits p) (hj : j ∈ x.set.circuits p)
  (hc : j.cfg.channel = k.cfg.channel)
include hk hj hc

/-- The joining side of a replaced channel waits for the farewell (R137). -/
theorem adopt_replaced (h : ¬ SameDriver k j)
    (ha : k.addr = j.addr ∨ (s.lampLine p).carries j.addr j.cfg.channel = false) :
    let u := adopt p x s
    (u.lampLine p).carries j.addr j.cfg.channel = false ∧
    (u.tripped p = false → s.tripped p = false → j.cfg.switched = false →
      (u.channel j.cfg.channel).level = some 0) := by
  intro u
  refine ⟨?_, fun hu hs hd => ?_⟩
  · rw [show u.lampLine p = _ from adopt_lampLine p]
    exact adoptTripped_carries_of_replaced hdold hdnew hj hk hc h ha
  · rw [adopt_level_of_dimmed hdnew hj hu hs hd, adoptJoined_channel_of_replaced hdold hdnew hj hk hc h]
    rfl

/-- A kept or moved channel stays in place on the line (R13, R137). -/
theorem adopt_kept (h : SameDriver k j) :
    let u := adopt p x s
    rd (u.lampLine p).stations j.addr = rd (s.lampLine p).stations j.addr ∧
    (u.channel j.cfg.channel).farewell = (s.channel j.cfg.channel).farewell ∧
    (j.cfg.zone ≠ k.cfg.zone → (u.channel j.cfg.channel).hand = none) ∧
    (j.cfg.zone = k.cfg.zone → (u.channel j.cfg.channel).hand =
      (s.channel j.cfg.channel).hand.map fun y => { y with level := j.cfg.raised y.level }) ∧
    (u.tripped p = false → s.tripped p = false → j.cfg.switched = false →
      (u.channel j.cfg.channel).level =
        if j.cfg.zone = k.cfg.zone then (s.channel j.cfg.channel).level.map j.cfg.raised
        else (s.channel j.cfg.channel).level) := by
  intro u
  obtain ⟨hhand, hfarewell⟩ := adopt_hand (p := p) (x := x) (s := s) j.cfg.channel
  have hstation : rd (u.lampLine p).stations j.addr = rd (s.lampLine p).stations j.addr := by
    rw [show u.lampLine p = _ from adopt_lampLine p]
    exact adoptTripped_station_of_same hdold hdnew hj hk hc h
  by_cases hz : j.cfg.zone = k.cfg.zone
  · have hjoined := adoptJoined_channel_of_kept hdold hdnew hj hk hc h hz
    rw [hjoined] at hhand hfarewell
    refine ⟨hstation, hfarewell, fun hne => absurd hz hne, fun _ => hhand, fun hu hs hd => ?_⟩
    rw [adopt_level_of_dimmed hdnew hj hu hs hd, hjoined, if_pos hz]
    dsimp only
    rw [hs, if_neg Bool.false_ne_true]
  · have hjoined := adoptJoined_channel_of_moved hdold hdnew hj hk hc h hz
    rw [hjoined] at hhand hfarewell
    refine ⟨hstation, hfarewell, fun _ => hhand, fun he => absurd he hz, fun hu hs hd => ?_⟩
    rw [adopt_level_of_dimmed hdnew hj hu hs hd, hjoined, if_neg hz]

end Old

end Clauses

/-- Settles O25, clause by clause. -/
theorem adoptionAppliesTheChannelCases : Obligations.AdoptionAppliesTheChannelCases := by
  intro p x s hx hpoint old new distinct same line hdold hdnew
  refine ⟨adopt p x s, exec_adoption hx hpoint, ?_⟩
  refine ⟨fun j hj h => adopt_joins hdold hdnew hj h, fun k hk hl => adopt_leaves hdold hdnew hk hl,
    fun k hk j hj hc h ha => adopt_replaced hdold hdnew hk hj hc h ha,
    fun k hk j hj hc h => adopt_kept hdold hdnew hk hj hc h,
    fun hs hu j hj => adopt_level_of_tripped hdnew hs hu hj,
    fun seat => adopt_released seat hdold hdnew,
    fun hs z hz => adopt_adoptedZone hdnew hdold hz hs,
    fun c hold hnew => ?_, fun q hq => ?_, ?_, fun y hy => ?_⟩
  · rw [adopt_channel, adoptTripped_channel_of_none hnew]
    exact adoptLeft_channel_of_none hold
  · have hb := adoptTripped_others x s hq
    simp only [State.blocks, Prod.mk.injEq] at hb
    obtain ⟨-, -, -, hline⟩ := hb
    rw [adopt_lampLine]
    exact hline
  · rw [adopt_lampLine]
    exact adoptTripped_cursor hdold hdnew
  · obtain ⟨hleaves, hstays⟩ := adoptTripped_tx hdold hdnew (Option.mem_def.mp hy)
    rw [adopt_lampLine]
    split
    · next h => exact hleaves h
    · next h => exact hstays h

end Sys2Proof.Machine
end

section
namespace Sys2Proof.Machine

/-! ### Sample rings and lamp lines after every step (O59) -/

/-- Every sample ring meets `K`, and every lamp line meets `Q`. -/
def EachHolds (K : List Reading → Prop) (Q : LampLine → Prop) (s : State) : Prop :=
  (∀ m, K (s.meter m).ring) ∧ ∀ n, Q (s.lampLine n)

/-- Kept by what the part does to a sample ring (R18). -/
structure KeptByRing (K : List Reading → Prop) : Prop where
  empty : K []
  join : ∀ l r, K l → K (joinRing l r)

/-- Kept by what the part does to a lamp line. -/
structure KeptByLine (Q : LampLine → Prop) : Prop where
  tx : ∀ l x, Q l → Q { l with tx := x }
  departed : ∀ l d, Q l → Q { l with departed := d }
  down : ∀ l b, Q l → Q { l with down := b }
  /-- A station's miss count is 0 or 3, or one more than a count that was not 3. -/
  station : ∀ l a st, (st.misses = 0 ∨ st.misses = 3 ∨ ∃ old, rd l.stations a = some old ∧
    old.misses ≠ 3 ∧ st.misses = old.misses + 1) → Q l →
    Q { l with stations := wr l.stations a (some st) }
  enter : ∀ l a level c, Q l → Q (l.enter a level c)
  leave : ∀ l a c replaced, Q l → Q (l.leave a c replaced)
  begin : ∀ l now, Q l → Q (l.begin now)
  after : ∀ sets n, Q (lineAfter sets n)

/-- A push keeps what the writes of claim lists and of the blocks below them keep. -/
theorem acceptPush_keeps {P : State → Prop} (hsource : ∀ p, KeptBySource p (atPortal p) P)
    (hport : ∀ seat x s, P s → P (s.setPort seat x)) (hclaims : ∀ p l s, P s → P (setClaims p l s))
    (hcount : ∀ n s, P s → P { s with claimCounter := n }) (seat : Seat) (h : Header)
    (q : ClaimRequest) (s : State) (hs : P s) : P (acceptPush seat h q s) :=
  hport _ _ _ (forEach_keeps (f := pushCopy q seat (s.allocate s.claimCounter 49))
    (fun p _ u hu => claimsChanged_keeps (hsource p) _ _ (hclaims _ _ u hu)) _ (hcount _ s hs))

section Writes

variable {K : List Reading → Prop} {Q : LampLine → Prop}

theorem EachHolds.setMeter {s : State} (h : EachHolds K Q s) (m : Fin 8) {x : Meter} (hx : K x.ring) :
    EachHolds K Q (s.setMeter m x) := by
  refine ⟨fun k => ?_, h.2⟩
  rw [State.meter, State.setMeter_meters, rd_wr]
  split
  · exact hx
  · exact h.1 k

theorem EachHolds.setLine {s : State} (h : EachHolds K Q s) (n : Fin 4) {l : LampLine} (hl : Q l) :
    EachHolds K Q (s.setLine n l) := by
  refine ⟨h.1, fun k => ?_⟩
  rw [State.lampLine, State.setLine_lines, rd_wr]
  split
  · exact hl
  · exact h.2 k

variable (hK : KeptByRing K) (hQ : KeptByLine Q)

include hQ in
theorem EachHolds.source (p : Fin 4) : KeptBySource p (atPortal p) (EachHolds K Q) where
  place := fun _ hk => hk
  scope := fun _ _ _ hk => circuit_portal hk
  zone := fun _ _ _ hs => hs
  channel := fun _ _ _ _ hs => hs
  enter := fun _ _ _ _ hs => hs.setLine p (hQ.enter _ _ _ _ (hs.2 p))
  post := fun _ _ _ _ hs => hs
  selector := fun _ _ hs => hs
  arbiter := fun _ _ _ hs => hs
  eval := fun _ _ hs => hs
  base := fun _ _ hs => hs

include hK in
/-- Every ring is empty after a reset (R37). -/
theorem ring_meterAfter (sets : Vector PortalSet 4) (m : Fin 8) : K (meterAfter sets m).ring := by
  unfold meterAfter
  split <;> exact hK.empty

include hK hQ

theorem EachHolds.powerUp (cause : ResetCause) (s : State) : EachHolds K Q (powerUp cause s) := by
  have posted (u : State) (b : Bool) (hu : EachHolds K Q u) :
      EachHolds K Q (if b then postAll .storeInvalid u else u) := by
    cases b <;> exact hu
  refine posted _ _ ⟨fun m => ?_, fun n => ?_⟩
  · simpa [State.meter, resetCommon] using ring_meterAfter hK _ m
  · simpa [State.lampLine] using hQ.after _ n

/-- A RESTART keeps the lamp lines but for the time left to their transactions (R141). -/
theorem EachHolds.restartPart (s : State) (hs : EachHolds K Q s) : EachHolds K Q (restartPart s) := by
  refine forEach_keeps
    (fun p _ u hu => restartPortal_keeps (EachHolds.source hQ p).toKeptByLight u hu) _
    ⟨fun m => ?_, fun n => ?_⟩
  · simpa [State.meter, resetCommon] using ring_meterAfter hK _ m
  · simpa [State.lampLine, LampLine.keep] using hQ.tx _ _ (hs.2 n)

/-- The single writes keep what each of their own rings and lines keeps. -/
theorem EachHolds.commands : KeptByCommands (EachHolds K Q) where
  post := fun _ _ _ _ hs => hs
  port := fun _ _ _ hs => hs
  mask := fun _ _ _ hs => hs
  pop := fun _ _ hs => hs
  meter := fun m x s hx hs => hs.setMeter m (by
    rcases hx with h | h | ⟨r, h⟩ | ⟨r, h⟩ <;> rw [h]
    · exact hs.1 m
    · exact hK.empty
    · exact hK.join _ r (hs.1 m)
    · exact hK.join _ r hK.empty)
  eval := fun _ _ _ hs => hs
  base := fun _ _ _ hs => hs
  selector := fun _ _ _ hs => hs
  arbiter := fun _ _ _ _ hs => hs
  remove := fun _ _ _ hs => hs
  push := fun seat h q s _ hs => acceptPush_keeps (EachHolds.source hQ) (fun _ _ _ hs => hs)
    (fun _ _ _ hs => hs) (fun _ _ hs => hs) seat h q s hs
  zone := fun _ _ _ _ hs => hs
  channel := fun _ _ _ hs => hs
  tx := fun n x _ hs => hs.setLine n (hQ.tx _ x (hs.2 n))
  departed := fun n d _ hs => hs.setLine n (hQ.departed _ d (hs.2 n))
  station := fun n a st _ hst hs => hs.setLine n (hQ.station _ a st hst (hs.2 n))
  enter := fun n _ _ _ _ hs => hs.setLine n (hQ.enter _ _ _ _ (hs.2 n))
  begin := fun n _ hs => hs.setLine n (hQ.begin _ _ (hs.2 n))
  grant := fun _ _ _ hs => hs
  ungrant := fun _ _ hs => hs
  shadow := fun _ _ _ _ _ hs => hs
  pending := fun seat p s hs => by
    unfold makePending
    dsimp only
    split <;> exact hs
  discard := fun _ _ hs => hs
  store := fun _ _ _ hs => hs
  free := fun _ _ hs => hs
  clock := fun _ _ _ hs => hs
  powerUp := fun cause s _ => EachHolds.powerUp hK hQ cause s
  restart := EachHolds.restartPart hK hQ
  freezes := fun _ _ hs => hs
  trip := fun _ _ _ hs => hs
  pins := fun _ _ hs => hs
  down := fun n b _ hs => hs.setLine n (hQ.down _ b (hs.2 n))
  leave := fun n _ _ _ _ hs => hs.setLine n (hQ.leave _ _ _ _ (hs.2 n))
  join := fun n a c b s hs => hs.setLine n (hQ.enter _ _ _ _
    (hQ.station _ a _ (by dsimp only; split <;> simp) (hs.2 n)))
  refresh := fun p s hs => by
    unfold refreshShadow
    dsimp only
    split <;> exact hs
  activate := fun _ _ _ _ hs => hs

theorem step_keeps_eachHolds {s t : State} (hs : EachHolds K Q s) (ht : step s = .next t) :
    EachHolds K Q t :=
  step_keeps (EachHolds.commands hK hQ).parts (fun _ _ h => h) s hs t ht

end Writes

/-- After power-on each address has one entry, by the slot of its channel (R141). -/
theorem lineAfter_nodup (sets : Vector PortalSet 4) (n : Fin 4) :
    ((lineAfter sets n).updates.map Entry.addr).Nodup := by
  have haddr : (lineAfter sets n).updates.map Entry.addr = ((rd sets n).circuits n).map Circuit.addr := by
    rw [lineAfter, List.map_map]
    rfl
  rw [haddr]
  exact List.Nodup.map_on (fun k hk j hj h => circuit_eq_of_addr hj hk h) (circuits_nodup _ n)

/-- Levels and farewells enter at their address alone (R130, R137). -/
theorem KeptByLine.updates : KeptByLine fun l => (l.updates.map Entry.addr).Nodup where
  tx := fun _ _ hl => hl
  departed := fun _ _ hl => hl
  down := fun _ _ hl => hl
  station := fun _ _ _ _ hl => hl
  enter := fun _ a level c hl => LampLine.enter_nodup hl a level c
  leave := fun _ a c b hl => LampLine.leave_nodup hl a c b
  begin := fun _ now hl => LampLine.begin_nodup hl now
  after := lineAfter_nodup

/-- A count that was not 3 rises by one at most to 3 (R132). -/
theorem KeptByLine.misses : KeptByLine fun l => ∀ a, ∀ t ∈ rd l.stations a, t.misses ≤ 3 where
  tx := fun _ _ hl => hl
  departed := fun _ _ hl => hl
  down := fun _ _ hl => hl
  station := fun l a st hst hl b t ht => by
    rw [rd_wr] at ht
    split at ht
    · cases ht
      rcases hst with h | h | ⟨old, hold, hne, h⟩
      · omega
      · omega
      · have := hl a old hold
        omega
    · exact hl b t ht
  enter := fun l a level c hl => by rwa [LampLine.enter_stations]
  leave := fun l a c b hl k t ht => by
    rw [LampLine.leave_stations] at ht
    split at ht
    · rw [rd_wr] at ht
      split at ht
      · cases ht
      · exact hl k t ht
    · exact hl k t ht
  begin := fun l now hl => by rwa [LampLine.begin_stations]
  after := fun sets n a t ht => by
    rw [lineAfter, rd_tab] at ht
    obtain ⟨r, -, rfl⟩ := Option.map_eq_some_iff.mp ht
    exact Nat.zero_le 3

/-- Settles O59: what each ring and each line keeps by itself, every step keeps of all of them. -/
theorem everyStepKeepsUpdateSetsRingsAndMissCounts :
    Obligations.EveryStepKeepsUpdateSetsRingsAndMissCounts := by
  have free : KeptByRing fun _ => True := ⟨trivial, fun _ _ _ => trivial⟩
  have short : KeptByRing fun l => l.length ≤ 16 := ⟨Nat.zero_le 16, joinRing_length_le⟩
  refine ⟨fun s t hs ht => ?_, fun s t hr hm ht => ?_⟩
  · exact (step_keeps_eachHolds free KeptByLine.updates ⟨fun _ => trivial, hs⟩ ht).2
  · exact step_keeps_eachHolds short KeptByLine.misses ⟨hr, hm⟩ ht

end Sys2Proof.Machine
end

section
namespace Sys2Proof.Machine

/-! ### What an evaluation leaves -/

/-- From `s` to `t` nothing was written but base states, evaluators, selectors, arbiters, zones, channels,
lines and queues. -/
def SameAround (s t : State) : Prop :=
  SameClock s t ∧ SameSets s t ∧ SameMeters s t ∧ SameTrips s t ∧ t.ports = s.ports ∧
    t.claimCounter = s.claimCounter

theorem SameAround.refl (s : State) : SameAround s s :=
  ⟨⟨rfl, rfl, rfl, rfl, rfl, rfl⟩, ⟨rfl, rfl, rfl, rfl⟩, rfl, rfl, rfl, rfl⟩

/-- The daylight path, zones, channels and levels that enter are none of it. -/
theorem SameAround.source (p : Fin 4) (s : State) : KeptBySource p (atPortal p) (SameAround s) where
  place := fun _ hk => hk
  scope := fun _ _ _ hk => circuit_portal hk
  zone := fun _ _ _ h => h
  channel := fun _ _ _ _ h => h
  enter := fun _ _ _ _ h => h
  post := fun _ _ _ _ h => h
  selector := fun _ _ h => h
  arbiter := fun _ _ _ h => h
  eval := fun _ _ h => h
  base := fun _ _ h => h

theorem evaluate_around (p : Fin 4) (s : State) : SameAround s (evaluate p s) :=
  evaluate_keeps (SameAround.source p s) s (SameAround.refl s)

theorem evaluate_local (p : Fin 4) (s : State) : Local p s (evaluate p s) :=
  evaluate_keeps (Local.source p s) s (Local.refl p s)

/-! ### The largest estimate (R30) -/

theorem mem_validEstimates {s : State} {p : Fin 4} {x : Nat} :
    x ∈ s.validEstimates p ↔
      ∃ m, ((s.record p).binds m = true ∧ (s.meter m).state = .valid) ∧
        (s.meter m).estimate.getD 0 = x := by
  simp only [State.validEstimates, List.mem_map, List.mem_filter, mem_meters_iff, beq_iff_eq]

theorem bestEstimate_eq (s : State) (p : Fin 4) :
    s.bestEstimate p = (s.validEstimates p).max?.getD 0 := by
  rw [State.bestEstimate, List.foldl_max, Nat.zero_max]

theorem le_bestEstimate {s : State} {p : Fin 4} {x : Nat} (h : x ∈ s.validEstimates p) :
    x ≤ s.bestEstimate p := by
  rw [bestEstimate_eq]
  exact List.le_max?_getD_of_mem h

theorem bestEstimate_mem {s : State} {p : Fin 4} (h : s.validEstimates p ≠ []) :
    s.bestEstimate p ∈ s.validEstimates p := by
  rw [bestEstimate_eq]
  cases hm : (s.validEstimates p).max? with
  | none => exact absurd (List.max?_eq_none_iff.mp hm) h
  | some x => exact List.max?_mem hm

/-- The largest estimate rests on the binding, the meter states and the estimates. -/
theorem bestEstimate_congr {s t : State} {p : Fin 4} (hr : t.record p = s.record p)
    (hm : ∀ m, (t.meter m).state = (s.meter m).state ∧ (t.meter m).estimate = (s.meter m).estimate) :
    t.bestEstimate p = s.bestEstimate p := by
  simp only [State.bestEstimate, State.validEstimates, hr, hm]

/-! ### What an evaluation forms (R29 to R31) -/

/-- A start writes the source alone, and only where there was none. -/
theorem startRunning_eval (p : Fin 4) (s : State) : ∃ source,
    (startRunning p s).eval p = { s.eval p with source := source } ∧
      (s.baseOf p ≠ .starting ∨ (s.eval p).source ≠ .none → source = (s.eval p).source) := by
  by_cases h : s.baseOf p = .starting ∧ (s.statusOf p).starts = true
  · rw [startRunning_of_starts h]
    refine ⟨_, rd_wr_self _ _ _, fun hs => ?_⟩
    rcases hs with hs | hs
    · exact absurd h.1 hs
    · exact if_neg hs
  · rw [startRunning_of_not h]
    exact ⟨_, rfl, fun _ => rfl⟩

theorem startRunning_luminanceOf (p : Fin 4) (s : State) :
    (startRunning p s).luminanceOf p = s.luminanceOf p := by
  obtain ⟨⟨-, ⟨hactive, -⟩, hmeters, ⟨-, harbiters, -⟩, -⟩, -⟩ := startRunning_same p s
  obtain ⟨source, heval, -⟩ := startRunning_eval p s
  have hmeter (m : Fin 8) : (startRunning p s).meter m = s.meter m := congrArg (rd · m) hmeters
  have hbest : (startRunning p s).bestEstimate p = s.bestEstimate p :=
    bestEstimate_congr (by rw [State.record, hactive]) fun m => by rw [hmeter m]; exact ⟨rfl, rfl⟩
  unfold State.luminanceOf
  rw [startRunning_statusOf, heval, hbest, State.arbiter, harbiters]

/-- The Portal Evaluator after an evaluation, but for its mismatch timer. -/
theorem evaluate_eval (p : Fin 4) (s : State) : ∃ source since reported,
    (evaluate p s).eval p =
      { s.eval p with
        source := source, status := s.statusOf p, luminance := s.luminanceOf p
        demand := if (s.statusOf p).offers then s.luminanceOf p * (s.record p).k / 100
          else (s.eval p).demand
        mismatchSince := since, mismatchReported := reported } ∧
      (s.baseOf p ≠ .starting ∨ (s.eval p).source ≠ .none → source = (s.eval p).source) := by
  obtain ⟨⟨-, ⟨hactive, -⟩, -⟩, -⟩ := startRunning_same p s
  obtain ⟨source, heval, hsource⟩ := startRunning_eval p s
  obtain ⟨since, reported, hmis⟩ := testMismatch_eq (s.formed p) (s.pair p) s.now
  refine ⟨source, since, reported, ?_, hsource⟩
  rw [evaluate, (handOver_eval p _ _ _).1, evaluateOnly_eval, hmis, State.formed, heval,
    startRunning_luminanceOf, State.record, hactive]

theorem statusOf_injected {s : State} {p : Fin 4} {c : Claim} (h : (s.arbiter p).topInject = some c) :
    s.statusOf p = .injected ∧ s.luminanceOf p = c.argument.getD 0 := by
  have hs : s.statusOf p = .injected := by rw [State.statusOf, h]; rfl
  refine ⟨hs, ?_⟩
  rw [State.luminanceOf, hs, h]
  rfl

theorem statusOf_source {s : State} {p : Fin 4} (h : (s.arbiter p).topInject = none) :
    s.statusOf p = (s.eval p).source.status := by
  rw [State.statusOf, h]
  rfl

/-- The access luminance by the source status (R30). -/
theorem luminanceOf_eq (s : State) (p : Fin 4) :
    (s.statusOf p = .live → s.luminanceOf p = s.bestEstimate p) ∧
    (s.statusOf p = .hold → s.luminanceOf p = (s.eval p).held) ∧
    (s.statusOf p = .lost → s.luminanceOf p = (s.eval p).luminance) ∧
    (s.statusOf p = .none → s.luminanceOf p = 0) := by
  refine ⟨fun h => ?_, fun h => ?_, fun h => ?_, fun h => ?_⟩ <;> rw [State.luminanceOf, h]

/-- Settles O41: what an evaluation forms is `evaluate_eval`, read by its source status. -/
theorem evaluationFormsStatusLuminanceAndDemand :
    Obligations.EvaluationFormsStatusLuminanceAndDemand := by
  intro p s e t status valid estimate
  have hvalid (m : Fin 8) : valid m ↔ (s.record p).binds m = true ∧ (s.meter m).state = .valid := by
    rw [binds_iff]
  have hmem (x : Nat) : x ∈ s.validEstimates p ↔ ∃ m, valid m ∧ estimate m = x := by
    simp only [mem_validEstimates, hvalid, estimate]
  obtain ⟨source, since, reported, heval, hsource⟩ := evaluate_eval p s
  have hstatus : status = s.statusOf p := congrArg Evaluator.status heval
  have hlum : (t.eval p).luminance = s.luminanceOf p := congrArg Evaluator.luminance heval
  have hdemand : (t.eval p).demand = if (s.statusOf p).offers then
      s.luminanceOf p * (s.record p).k / 100 else e.demand := congrArg Evaluator.demand heval
  obtain ⟨hlive, hhold, hlost, hnone⟩ := luminanceOf_eq s p
  obtain ⟨hclock, hsets, hmeters, htrips, -⟩ := evaluate_around p s
  refine ⟨fun m hm => le_bestEstimate ((hmem _).mpr ⟨m, hm, rfl⟩), fun ⟨m, hm⟩ => ?_, fun hno => ?_,
    fun c hc => ?_, fun hc => ?_, fun ho => ?_, fun ho => ?_, fun hs => ?_, ?_,
    fun q hq => ((evaluate_local p s).others q hq).1, hclock, hsets, hmeters, htrips⟩
  · exact (hmem _).mp (bestEstimate_mem (List.ne_nil_of_mem ((hmem _).mpr ⟨m, hm, rfl⟩)))
  · have hnil : s.validEstimates p = [] := by
      by_contra hne
      obtain ⟨m, hm, -⟩ := (hmem _).mp (bestEstimate_mem hne)
      exact hno m hm
    rw [State.bestEstimate, hnil]
    rfl
  · rw [hstatus, hlum]
    exact statusOf_injected hc
  · have hs := statusOf_source hc
    refine ⟨fun h => ?_, fun h => ?_, fun h => ?_, fun h => ?_⟩ <;>
      rw [show (s.eval p).source = _ from h] at hs <;> rw [hstatus, hlum]
    · exact ⟨hs, hlive hs⟩
    · exact ⟨hs, hhold hs⟩
    · exact ⟨hs, hlost hs⟩
    · exact ⟨hs, hnone hs⟩
  · rw [hdemand, hlum, if_pos ((offers_iff _).mpr (hstatus ▸ ho))]
  · rw [hdemand, if_neg]
    rw [← hstatus]
    rcases ho with h | h <;> simp [h, SourceStatus.offers]
  · exact (congrArg Evaluator.source heval).trans (hsource hs)
  · have hsince := congrArg Evaluator.holdSince heval
    exact hsince

end Sys2Proof.Machine
end

section
namespace Sys2Proof.Machine

/-! ### What a resolution and a move of the stage leave (R49, R51, R73, R74) -/

/-- The end of an event leaves all that `SameAround` speaks of. -/
theorem SameAround.begun {s u : State} (h : SameAround s u) : SameAround s (beginTransactions u) := by
  simpa [SameAround, SameClock, SameSets, SameMeters, SameTrips] using h

theorem beginTransactions_eval (p : Fin 4) (s : State) : (beginTransactions s).eval p = s.eval p :=
  congrArg (rd · p) (beginTransactions_evals s)

theorem beginTransactions_selector (p : Fin 4) (s : State) :
    (beginTransactions s).selector p = s.selector p := congrArg (rd · p) (beginTransactions_selectors s)

theorem beginTransactions_queue (seat : Seat) (s : State) :
    (beginTransactions s).queue seat = s.queue seat :=
  congrArg (rd · (seatIx seat)) (beginTransactions_queues s)

/-- What the zones do with their targets writes outputs alone. -/
theorem resolve_output (p : Fin 4) (s : State) : SameButOutput (resolveStage p s) (resolve p s) := by
  unfold resolve
  dsimp only
  split
  · rfl
  · exact handTargets_keeps (SameButOutput.trips p (resolveStage p s)).toKeptByLight _ rfl

theorem resolve_around (p : Fin 4) (s : State) : SameAround s (resolve p s) :=
  resolve_keeps (SameAround.source p s).toKeptByStage s (SameAround.refl s)

theorem resolve_local (p : Fin 4) (s : State) : Local p s (resolve p s) :=
  resolve_keeps (Local.source p s).toKeptByStage s (Local.refl p s)

/-- Resolved, the effective stage is the one of R73. -/
theorem resolve_arbiter (p : Fin 4) (s : State) :
    (resolve p s).arbiter p = { s.arbiter p with effective := (s.arbiter p).resolved } := by
  rw [State.arbiter, (resolve_output p s).arbiters]
  exact resolveStage_arbiter p s

/-- A resolution that changes nothing does nothing (R74). -/
theorem resolve_unchanged {p : Fin 4} {s : State}
    (h : (s.arbiter p).resolved = (s.arbiter p).effective) : resolve p s = s := by
  have hstage : resolveStage p s = s := if_pos h
  unfold resolve
  dsimp only
  rw [hstage, if_pos rfl]

theorem resolve_source (p : Fin 4) (s : State) : SameSource s (resolve p s) := by
  obtain ⟨hevals, hbase⟩ := resolveStage_source p s
  exact ⟨(resolve_output p s).evals.trans hevals, (resolve_output p s).base.trans hbase⟩

theorem resolve_selectors (p : Fin 4) (s : State) : (resolve p s).selectors = s.selectors := by
  rw [(resolve_output p s).selectors]
  unfold resolveStage
  dsimp only
  split <;> rfl

/-- A changed stage is told to every seat, and nothing else (R74). -/
theorem resolve_queue (p : Fin 4) (s : State) (seat : Seat) :
    (resolve p s).queue seat =
      if (s.arbiter p).resolved = (s.arbiter p).effective then s.queue seat
      else (s.queue seat).place
        (.stageChanged p (s.arbiter p).effective (s.arbiter p).resolved (s.arbiter p).automatic)
        s.uptime := by
  have handed : (resolve p s).queues = (resolveStage p s).queues := by
    unfold resolve
    dsimp only
    split
    · rfl
    · exact (handTargets_keeps (quietLight p (resolveStage p s)) _ ⟨rfl, rfl⟩).2
  rw [State.queue, handed]
  unfold resolveStage
  dsimp only
  split
  · rfl
  · exact postAll_queue _ _ seat

theorem setStage_arbiter (p : Fin 4) (stage : Nat) (s : State) :
    (setStage p stage s).arbiter p = { s.arbiter p with automatic := stage, top := (s.set p).top } :=
  rd_wr_self _ _ _

theorem setStage_selector (p : Fin 4) (stage : Nat) (s : State) :
    (setStage p stage s).selector p =
      { s.selector p with
        automatic := stage, dwell := some (s.now + ((s.set p).row stage).dwell * 1000)
        enteredAt := s.tenths } := rd_wr_self _ _ _

theorem moveTo_arbiter (p : Fin 4) (stage : Nat) (s : State) :
    let low : Arbiter := { s.arbiter p with automatic := stage, top := (s.set p).top }
    (moveTo p stage s).arbiter p = { low with effective := low.resolved } := by
  rw [moveTo, resolve_arbiter, setStage_arbiter]

theorem moveTo_selector (p : Fin 4) (stage : Nat) (s : State) :
    (moveTo p stage s).selector p =
      { s.selector p with
        automatic := stage, dwell := some (s.now + ((s.set p).row stage).dwell * 1000)
        enteredAt := s.tenths } := by
  rw [moveTo, State.selector, resolve_selectors]
  exact setStage_selector p stage s

theorem moveTo_queue (p : Fin 4) (stage : Nat) (s : State) (seat : Seat) :
    let low : Arbiter := { s.arbiter p with automatic := stage, top := (s.set p).top }
    (moveTo p stage s).queue seat =
      if low.resolved = low.effective then s.queue seat
      else (s.queue seat).place (.stageChanged p low.effective low.resolved stage) s.uptime := by
  rw [moveTo, resolve_queue, setStage_arbiter]
  rfl

/-- Entry to AT_TOP (R54). -/
theorem enterTop_selector (p : Fin 4) (s : State) :
    (enterTop p s).selector p =
      { following := false, automatic := (s.set p).top
        dwell := some (s.now + ((s.set p).row (s.set p).top).dwell * 1000)
        enteredAt := s.tenths, demandInUse := none } := by
  have hfollow : (follow p false none s).selector p =
      { s.selector p with following := false, demandInUse := none } := rd_wr_self _ _ _
  rw [enterTop, moveTo_selector, hfollow]
  rfl

theorem enterTop_queue (p : Fin 4) (s : State) (seat : Seat) :
    let low : Arbiter := { s.arbiter p with automatic := (s.set p).top, top := (s.set p).top }
    (enterTop p s).queue seat =
      if low.resolved = low.effective then s.queue seat
      else (s.queue seat).place (.stageChanged p low.effective low.resolved (s.set p).top) s.uptime :=
  moveTo_queue p (s.set p).top (follow p false none s) seat

/-! ### Meters that leave VALID (R23, R27, R28) -/

theorem setEval_self (p : Fin 4) (s : State) : s.setEval p (s.eval p) = s := by
  rw [State.setEval, State.eval, wr_rd_self]

/-- A changed meter, with its event where the state changes (R24). -/
theorem changeMeter_told {m : Fin 8} {s : State} (p : Fin 4) (cause : MeterCause) (x : Meter)
    (h : (s.meter m).state ≠ x.state) : changeMeter m p cause x s =
      postAll (.meterState p m cause (s.meter m).state x.state) (s.setMeter m x) := if_neg h

theorem changeMeter_quiet {m : Fin 8} {s : State} (p : Fin 4) (cause : MeterCause) (x : Meter)
    (h : (s.meter m).state = x.state) : changeMeter m p cause x s = s.setMeter m x := if_pos h

/-- Whether a bound meter other than `m` is VALID. -/
def State.AnotherValid (s : State) (p : Fin 4) (m : Fin 8) : Prop :=
  ∃ n, n ≠ m ∧ (s.record p).binds n = true ∧ (s.meter n).state = .valid

/-- Once meter `m` is not VALID, the meters of a portal that are VALID are those other than `m`. -/
theorem validEstimates_without {p : Fin 4} {m : Fin 8} {s u : State} {y : Meter}
    (hm : u.meters = wr s.meters m y) (hy : y.state ≠ .valid) (hr : u.record p = s.record p) :
    u.validEstimates p ≠ [] ↔
      s.AnotherValid p m := by
  have hmeter (n : Fin 8) : u.meter n = if m = n then y else s.meter n := by
    rw [State.meter, hm, rd_wr]
  rw [validEstimates_ne, hr]
  constructor
  · rintro ⟨n, hn, hv⟩
    rw [hmeter] at hv
    split at hv
    · exact absurd hv hy
    · next hne => exact ⟨n, Ne.symm hne, hn, hv⟩
  · rintro ⟨n, hne, hn, hv⟩
    exact ⟨n, hn, by rw [hmeter, if_neg hne.symm]; exact hv⟩

theorem anotherValid_iff (s : State) (p : Fin 4) (m : Fin 8) :
    ((List.finRange 8).any fun n => n != m &&
      ((s.record p).slot0 == some n || (s.record p).slot1 == some n) && (s.meter n).state == .valid) =
        true ↔ s.AnotherValid p m := by
  simp [State.AnotherValid, PortalRecord.binds, and_assoc]

/-- The meter source stays while another bound meter is VALID (R27). -/
theorem leavesValid_of_another {p : Fin 4} {m : Fin 8} {s : State} (u : State)
    (h : s.AnotherValid p m) : LeavesValid p m s u = evaluate p u := by
  rw [LeavesValid, if_pos (Or.inl ((anotherValid_iff s p m).mpr h))]

/-- With the last VALID meter the portal loses its source of LIVE (R27, R28, R30). -/
theorem leavesValid_of_last {p : Fin 4} {m : Fin 8} {s u : State} (h : ¬ s.AnotherValid p m)
    (he : u.eval p = s.eval p) : LeavesValid p m s u =
      evaluate p (u.setEval p
        ((s.eval p).loseMeters (s.bestEstimate p) (s.record p).tHold s.now)) := by
  have hany := (anotherValid_iff s p m).not.mpr h
  unfold LeavesValid Evaluator.loseMeters
  dsimp only
  by_cases hlive : (s.eval p).source = .live
  · rw [if_neg (not_or.mpr ⟨hany, not_not.mpr hlive⟩), if_pos hlive]
    split <;> rfl
  · rw [if_pos (Or.inr hlive), if_neg hlive, ← he, setEval_self]

/-- What follows where a bound meter has left VALID is `LeavesValid`, by the meters left (R27, R30). -/
theorem meterLeftValid_eq {p : Fin 4} {m : Fin 8} {s u : State} {y : Meter}
    (hm : u.meters = wr s.meters m y) (hy : y.state ≠ .valid) (hrest : SameButMeters s u) :
    meterLeftValid p (s.bestEstimate p) u = LeavesValid p m s u := by
  have hr : u.record p = s.record p := by rw [State.record, hrest.active]
  have he : u.eval p = s.eval p := congrArg (rd · p) hrest.evals
  have hvalid : u.validEstimates p ≠ [] ↔ s.AnotherValid p m := validEstimates_without hm hy hr
  unfold meterLeftValid
  by_cases hlast : u.validEstimates p = []
  · rw [if_pos hlast, he, hr, hrest.now, leavesValid_of_last (hvalid.not.mp (not_not.mpr hlast)) he]
  · rw [if_neg hlast, leavesValid_of_another u (hvalid.mp hlast)]

/-! ### Deadlines and timers of the Meter Intake and the evaluators (O40) -/

theorem expire_of_starting {x : Meter} (h : x.state = .starting) :
    x.expire = { x with ring := [], staleDeadline := none } := by
  cases x
  dsimp only at h
  rw [h]
  rfl

theorem expire_of_valid {x : Meter} (h : x.state = .valid) :
    x.expire = { x with state := .stale, staleDeadline := none } := by
  cases x
  dsimp only at h
  rw [h]
  rfl

theorem passed_of_le {s : State} {d : Nat} (h : d ≤ s.tenths) : s.passed (some d) = true :=
  decide_eq_true h

theorem due_of_le {s : State} {e : Nat} (h : e ≤ s.now) : s.due (some e) = true :=
  decide_eq_true h

/-- A STARTING meter that hears nothing for Tstale begins anew, with no event (R20). -/
theorem exec_staleDeadline_starting {m : Fin 8} {p : Fin 4} {d : Nat} {s : State}
    (hp : s.meterPortal m = some p) (hd : (s.meter m).staleDeadline = some d) (hle : d ≤ s.tenths)
    (hs : (s.meter m).state = .starting) : exec (.staleDeadline m) s =
      .next (s.setMeter m { s.meter m with ring := [], staleDeadline := none }) := by
  have hstate : (s.meter m).state ≠ .valid := by simp [hs]
  change execStaleDeadline m s = _
  unfold execStaleDeadline
  rw [hp]
  dsimp only
  rw [hd, if_pos (passed_of_le hle), expire_of_starting hs, if_neg hstate]
  exact congrArg _ (changeMeter_quiet p _ { s.meter m with ring := [], staleDeadline := none } rfl)

/-- A VALID meter that hears nothing for Tstale is STALE, its estimate kept (R21). -/
theorem exec_staleDeadline_valid {m : Fin 8} {p : Fin 4} {d : Nat} {s : State}
    (hp : s.meterPortal m = some p) (hd : (s.meter m).staleDeadline = some d) (hle : d ≤ s.tenths)
    (hs : (s.meter m).state = .valid) : exec (.staleDeadline m) s =
      done (LeavesValid p m s (postAll (.meterState p m .timeout .valid .stale)
        (s.setMeter m { s.meter m with state := .stale, staleDeadline := none }))) := by
  have hleft := meterLeftValid_eq (p := p) (changeMeter_meter m p .timeout
    { s.meter m with state := .stale, staleDeadline := none } s) (by simp) (changeMeter_rest _ _ _ _ _)
  rw [changeMeter_told p _ _ (by simp [hs])] at hleft
  change execStaleDeadline m s = _
  unfold execStaleDeadline
  rw [hp]
  dsimp only
  rw [hd, if_pos (passed_of_le hle), expire_of_valid hs, if_pos hs, changeMeter_told p _ _ (by simp [hs]),
    hleft, hs]

/-- The hold timer expires: HOLD becomes LOST, and where HOLD is the source status the portal is evaluated
(R27, R30). -/
theorem exec_holdTimerExpiry {p : Fin 4} {e : Nat} {s : State} (hs : (s.eval p).source = .hold)
    (he : s.holdEnd p = some e) (hle : e ≤ s.now) : exec (.holdTimerExpiry p) s =
      if (s.eval p).status = .hold then done (evaluate p (s.setEval p (s.eval p).lose))
      else .next (s.setEval p (s.eval p).lose) :=
  if_pos ⟨hs, by rw [he]; exact due_of_le hle⟩

/-- A RUNNING portal whose HOLD becomes LOST goes to its top stage, its source and a changed stage told
(R32, R54, R74). -/
theorem evaluate_lost {p : Fin 4} {s : State} (hs : (s.eval p).status = .hold)
    (hi : (s.arbiter p).topInject = none) (hb : s.baseOf p = .running) :
    let t := evaluate p (s.setEval p (s.eval p).lose)
    let top := (s.set p).top
    let low : Arbiter := { s.arbiter p with automatic := top, top := top }
    t.selector p =
        { following := false, automatic := top, dwell := some (s.now + ((s.set p).row top).dwell * 1000)
          enteredAt := s.tenths, demandInUse := none } ∧
      ∀ seat,
        let told := (s.queue seat).place (.sourceChanged p .lost) s.uptime
        t.queue seat =
          if low.resolved = low.effective then told
          else told.place (.stageChanged p low.effective low.resolved top) s.uptime := by
  intro t top low
  have hlose : (s.setEval p (s.eval p).lose).eval p = (s.eval p).lose := rd_wr_self _ _ _
  have hbefore : ((s.setEval p (s.eval p).lose).eval p).status = .hold := by
    rw [hlose]
    exact hs
  have hstatus : (t.eval p).status = .lost := by
    obtain ⟨_, _, _, heval, -⟩ := evaluate_eval p (s.setEval p (s.eval p).lose)
    rw [heval]
    dsimp only
    rw [statusOf_source (s := s.setEval p (s.eval p).lose) hi, hlose]
    rfl
  obtain ⟨-, -, -, -, u, -, -, hqueue, ⟨hnow, -⟩, ⟨hactive, -⟩, -, ⟨-, harb, -⟩, -, -, -, -, -, -, hrun⟩ :=
    evaluationStartsThePortalAndHandsTheDemandOver p (s.setEval p (s.eval p).lose)
  have htop : t = enterTop p u := (hrun hb).1 hstatus (by rw [hbefore]; decide)
  have hset : u.set p = s.set p := congrArg (rd · p) hactive
  have harbiter : u.arbiter p = s.arbiter p := congrArg (rd · p) harb
  have htenths : u.tenths = s.tenths := congrArg (· / 100) hnow
  rw [htop]
  constructor
  · rw [enterTop_selector, hset, hnow, htenths]
    rfl
  · intro seat told
    have htold : u.queue seat = told := by
      rw [hqueue seat, hstatus, if_neg (by rw [hbefore]; decide)]
      rfl
    rw [enterTop_queue, hset, harbiter, htold, uptime_of_now hnow]
    rfl

/-- What the evaluator of a portal holds once its HOLD has become LOST (R30, R31). -/
theorem evaluate_lost_eval {p : Fin 4} {s : State} (hi : (s.arbiter p).topInject = none)
    (hb : s.baseOf p ≠ .starting) :
    let e := (evaluate p (s.setEval p (s.eval p).lose)).eval p
    e.source = .lost ∧ e.status = .lost ∧ e.holdSince = none ∧ e.luminance = (s.eval p).luminance ∧
      e.demand = (s.eval p).demand := by
  intro e
  have hlose : (s.setEval p (s.eval p).lose).eval p = (s.eval p).lose := rd_wr_self _ _ _
  have hstatus : (s.setEval p (s.eval p).lose).statusOf p = .lost := by
    rw [statusOf_source (s := s.setEval p (s.eval p).lose) hi, hlose]
    rfl
  obtain ⟨-, -, hlost, -⟩ := luminanceOf_eq (s.setEval p (s.eval p).lose) p
  obtain ⟨source, _, _, heval, hsource⟩ := evaluate_eval p (s.setEval p (s.eval p).lose)
  rw [hsource (Or.inl hb), hstatus, hlost hstatus, hlose] at heval
  rw [show e = _ from heval]
  exact ⟨rfl, rfl, rfl, rfl, rfl⟩

/-- What the Stage Selector is handed leaves the Portal Evaluators and the base states. -/
theorem handOver_source (p : Fin 4) (base : BaseState) (status : SourceStatus) (s : State) :
    SameSource s (handOver p base status s) :=
  handOver_keeps (P := SameSource s) (C := atPortal p)
    { place := fun _ h => h, scope := fun _ _ _ h => circuit_portal h
      zone := fun _ _ _ h => h, channel := fun _ _ _ _ h => h, enter := fun _ _ _ _ h => h
      post := fun _ _ _ _ h => h, selector := fun _ _ h => h, arbiter := fun _ _ _ h => h }
    base status s ⟨rfl, rfl⟩

/-- Only a STARTING portal's evaluation changes a base state (R2). -/
theorem evaluate_base {p : Fin 4} {s : State} (hb : s.baseOf p ≠ .starting) :
    (evaluate p s).base = s.base := by
  rw [evaluate, (handOver_source p _ _ _).2, (evaluateOnly_same p s).2,
    startRunning_of_not fun h => hb h.1]

/-- MISMATCH is told with both meters and their estimates, and marked (R34). -/
theorem exec_mismatch {p : Fin 4} {a b : Fin 8} {e : Nat} {s : State}
    (ha : (s.record p).slot0 = some a) (hb : (s.record p).slot1 = some b)
    (he : s.mismatchEnd p = some e) (hle : e ≤ s.now) : exec (.mismatch p) s =
      .next ((postAll
        (.mismatch p a ((s.meter a).estimate.getD 0) b ((s.meter b).estimate.getD 0)) s).setEval p
          { s.eval p with mismatchSince := none, mismatchReported := true }) := by
  change execMismatch p s = _
  unfold execMismatch
  rw [ha, hb]
  exact if_pos (by rw [he]; exact due_of_le hle)

/-- Settles O40, expiry by expiry. -/
theorem silentMetersExpiredHoldsAndMismatchesAreTold :
    Obligations.SilentMetersExpiredHoldsAndMismatchesAreTold := by
  refine ⟨fun m p d s hp hd hle => ⟨exec_staleDeadline_starting hp hd hle,
    exec_staleDeadline_valid hp hd hle⟩, fun p e s hsource he hle => ?_,
    fun p a b e s ha hb he hle => exec_mismatch ha hb he hle⟩
  have hexec := exec_holdTimerExpiry hsource he hle
  refine ⟨fun hs => hexec.trans (if_neg hs), fun hs => hexec.trans (if_pos hs), fun hs hi hb => ?_⟩
  have hnot : s.baseOf p ≠ .starting := by simp [hb]
  have hnext := hexec.trans (if_pos hs)
  obtain ⟨hlost, hstatus, hsince, hlum, hdemand⟩ := evaluate_lost_eval hi hnot
  obtain ⟨hothers, -⟩ := holdTimer_stays p s _ hnext
  obtain ⟨hclock, hsets, hmeters, htrips, hports, -⟩ :=
    (evaluate_keeps (SameAround.source p s) (s.setEval p (s.eval p).lose) (SameAround.refl s)).begun
  obtain ⟨hselector, hqueue⟩ := evaluate_lost hs hi hb
  refine ⟨_, hnext, ?_, ?_, ?_, ?_, ?_, (beginTransactions_selector p _).trans hselector,
    fun seat => (beginTransactions_queue seat _).trans (hqueue seat), fun q hq => (hothers q hq).1,
    (beginTransactions_base _).trans (evaluate_base (s := s.setEval p (s.eval p).lose) hnot), hclock, hsets,
    hmeters, htrips, hports⟩
  · exact (congrArg Evaluator.source (beginTransactions_eval p _)).trans hlost
  · exact (congrArg Evaluator.status (beginTransactions_eval p _)).trans hstatus
  · exact (congrArg Evaluator.holdSince (beginTransactions_eval p _)).trans hsince
  · exact (congrArg Evaluator.luminance (beginTransactions_eval p _)).trans hlum
  · exact (congrArg Evaluator.demand (beginTransactions_eval p _)).trans hdemand

end Sys2Proof.Machine
end

section
namespace Sys2Proof.Machine

/-! ### The estimate's median and mean (R25) -/

/-- The median of three is one of them, with two at or below it and two at or above it. -/
theorem median3_spec (a b c : Nat) :
    let u := median3 c b a
    (u = a ∨ u = b ∨ u = c) ∧ 2 ≤ ([a, b, c].filter (· ≤ u)).length ∧
      2 ≤ ([a, b, c].filter (u ≤ ·)).length := by
  have order : ∀ u, median3 c b a = u →
      (u = a ∧ ((b ≤ a ∧ a ≤ c) ∨ (c ≤ a ∧ a ≤ b))) ∨ (u = b ∧ ((a ≤ b ∧ b ≤ c) ∨ (c ≤ b ∧ b ≤ a))) ∨
        (u = c ∧ ((a ≤ c ∧ c ≤ b) ∨ (b ≤ c ∧ c ≤ a))) := by
    intro u hu
    unfold median3 at hu
    omega
  rcases order _ rfl with ⟨hu, h | h⟩ | ⟨hu, h | h⟩ | ⟨hu, h | h⟩ <;> intro u <;>
    simp only [u, hu, List.filter_cons, h, le_refl, decide_true] <;> grind

theorem medianOf_append (old : List Reading) (a b c : Reading) :
    medianOf (old ++ [a, b, c]) = median3 c.luminance b.luminance a.luminance := by
  simp [medianOf]

/-- The mean of the newest `n` entries, oldest of them first. -/
theorem meanOf_eq (n : Nat) (ring : List Reading) :
    meanOf n ring = ((ring.drop (ring.length - n)).map Reading.luminance).sum /
      (ring.drop (ring.length - n)).length := by
  simp only [meanOf, List.take_reverse, List.map_reverse, List.sum_reverse, List.length_reverse]

/-! ### A frame that is not discarded (R15 to R17) -/

theorem postAll_meters (e : Event) (s : State) : (postAll e s).meters = s.meters := by
  simp only [postAll, postTo, State.setQueue_meters]

theorem postAll_evals (e : Event) (s : State) : (postAll e s).evals = s.evals := by
  simp only [postAll, postTo, State.setQueue_evals]

theorem SameButMeters.told {s u : State} (e : Event) (h : SameButMeters s u) :
    SameButMeters s (postAll e u) := h

/-- A meter with the items that every frame not discarded updates (R17). -/
def Meter.noted (x : Meter) (f : ReadingFrame) : Meter :=
  { x with lastSeq := some f.seq, window := f.window, heater := f.heater }

@[simp] theorem noted_state (x : Meter) (f : ReadingFrame) : (x.noted f).state = x.state := rfl

@[simp] theorem noted_badCount (x : Meter) (f : ReadingFrame) : (x.noted f).badCount = x.badCount := rfl

/-- Meter `m` is replaced, METER_FLAGS told before it if the frame changes a flag (R17). -/
def withFrame (m : Fin 8) (f : ReadingFrame) (y : Meter) (s : State) : State :=
  if (s.meter m).window = f.window ∧ (s.meter m).heater = f.heater then s.setMeter m y
  else postAll (.meterFlags m f.window f.heater) (s.setMeter m y)

theorem noteFrame_eq (m : Fin 8) (f : ReadingFrame) (s : State) :
    noteFrame m f s = withFrame m f ((s.meter m).noted f) s := rfl

section WithFrame

variable (m : Fin 8) (f : ReadingFrame) (y : Meter) (s : State)

theorem withFrame_meters : (withFrame m f y s).meters = wr s.meters m y := by
  unfold withFrame
  split <;> rfl

theorem withFrame_meter : (withFrame m f y s).meter m = y := by
  rw [State.meter, withFrame_meters, rd_wr_self]

theorem withFrame_rest : SameButMeters s (withFrame m f y s) := by
  unfold withFrame
  split <;> rfl

theorem withFrame_tenths : (withFrame m f y s).tenths = s.tenths :=
  congrArg (· / 100) (withFrame_rest m f y s).now

theorem withFrame_record (p : Fin 4) : (withFrame m f y s).record p = s.record p :=
  congrArg (fun v => (rd v p).record) (withFrame_rest m f y s).active

/-- Only the meter as it is last written stands. -/
theorem withFrame_setMeter (z : Meter) : (withFrame m f y s).setMeter m z = withFrame m f z s := by
  have twice (u : State) (h : u.meters = wr s.meters m y) :
      u.setMeter m z = { u with meters := wr s.meters m z } := by
    rw [State.setMeter, h, wr_wr]
  rw [twice _ (withFrame_meters m f y s)]
  unfold withFrame
  split <;> rfl

/-- A frame that keeps a meter's state and estimate keeps every portal's largest estimate. -/
theorem withFrame_bestEstimate (p : Fin 4)
    (h : y.state = (s.meter m).state ∧ y.estimate = (s.meter m).estimate) :
    (withFrame m f y s).bestEstimate p = s.bestEstimate p := by
  refine bestEstimate_congr (withFrame_record m f y s p) fun n => ?_
  rw [State.meter, withFrame_meters, rd_wr]
  split
  · next hn => rwa [← hn]
  · exact ⟨rfl, rfl⟩

end WithFrame

/-- What sends meter `m` of portal `p` to FAULTED (R23, R24). -/
def toFault (m : Fin 8) (p : Fin 4) (f : ReadingFrame) (cause : MeterCause) (s : State) : State :=
  let x := s.meter m
  let u := postAll (.meterState p m cause x.state .faulted) (withFrame m f (x.noted f).fault s)
  if x.state = .valid then LeavesValid p m s u else u

/-- The portal's evaluation leaves the meters. -/
theorem toFault_meters (m : Fin 8) (p : Fin 4) (f : ReadingFrame) (cause : MeterCause) (s : State) :
    (toFault m p f cause s).meters = wr s.meters m ((s.meter m).noted f).fault := by
  have evaluated (u : State) : (evaluate p u).meters = u.meters := (evaluate_around p u).2.2.1
  have left (u : State) : (LeavesValid p m s u).meters = u.meters := by
    unfold LeavesValid
    dsimp only
    rw [evaluated]
    split
    · rfl
    · split <;> rfl
  unfold toFault
  dsimp only
  split
  · rw [left, postAll_meters, withFrame_meters]
  · rw [postAll_meters, withFrame_meters]

section Classes

variable {m : Fin 8} {p : Fin 4} {f : ReadingFrame} {s : State}

theorem sendToFault_eq (cause : MeterCause) (h : (s.meter m).state ≠ .faulted) :
    sendToFault m p cause (withFrame m f ((s.meter m).noted f) s) = toFault m p f cause s := by
  have htold : changeMeter m p cause ((s.meter m).noted f).fault
      (withFrame m f ((s.meter m).noted f) s) =
        postAll (.meterState p m cause (s.meter m).state .faulted)
          (withFrame m f ((s.meter m).noted f).fault s) := by
    rw [changeMeter_told p cause _ (by rw [withFrame_meter]; exact h), withFrame_meter,
      withFrame_setMeter]
    rfl
  have hleft := meterLeftValid_eq (p := p) (m := m) (s := s) (y := ((s.meter m).noted f).fault)
    (u := postAll (.meterState p m cause (s.meter m).state .faulted)
      (withFrame m f ((s.meter m).noted f).fault s))
    ((postAll_meters _ _).trans (withFrame_meters m f _ s)) (by simp [Meter.fault])
    (SameButMeters.told _ (withFrame_rest m f _ s))
  unfold sendToFault toFault
  dsimp only
  rw [withFrame_meter, htold, withFrame_bestEstimate m f ((s.meter m).noted f) s p ⟨rfl, rfl⟩,
    noted_state, hleft]

theorem handleReading_sensor (h : f.sensor = true) : handleReading m p f s =
    if (s.meter m).state = .faulted then withFrame m f ((s.meter m).noted f) s
    else toFault m p f .sensor s := by
  unfold handleReading sensorFault
  dsimp only
  rw [if_pos h, noteFrame_eq, withFrame_meter, noted_state]
  split
  · rfl
  · next hne => exact sendToFault_eq _ hne

theorem rangeFault_of_faulted {p : Fin 4} {s : State} (h : (s.meter m).state = .faulted) :
    rangeFault m p s = s := by
  unfold rangeFault
  dsimp only
  rw [h]

theorem rangeFault_of_starting {p : Fin 4} {s : State} (h : (s.meter m).state = .starting) :
    rangeFault m p s = sendToFault m p .range s := by
  unfold rangeFault
  dsimp only
  rw [h]

theorem rangeFault_counts {p : Fin 4} {s : State}
    (h : (s.meter m).state = .valid ∨ (s.meter m).state = .stale) :
    rangeFault m p s =
      if 2 ≤ (s.meter m).badCount then sendToFault m p .range s
      else s.setMeter m { s.meter m with badCount := (s.meter m).badCount + 1 } := by
  have hcount : 2 ≤ (s.meter m).badCount ↔ 3 ≤ (s.meter m).badCount + 1 := by omega
  simp only [hcount]
  unfold rangeFault
  dsimp only
  split
  all_goals simp_all

/-- An out-of-range frame by the meter state: it counts as bad, and the third in a row, or any in
STARTING, sends the meter to FAULTED (R23). -/
theorem handleReading_range (h : f.sensor = false) (hl : 20000 < f.luminance)
    (hu : (s.meter m).state ≠ .unused) : handleReading m p f s =
      if (s.meter m).state = .faulted then withFrame m f ((s.meter m).noted f) s
      else if (s.meter m).state = .starting ∨ 2 ≤ (s.meter m).badCount then toFault m p f .range s
      else withFrame m f { (s.meter m).noted f with badCount := (s.meter m).badCount + 1 } s := by
  have hmeter := withFrame_meter m f ((s.meter m).noted f) s
  have hstate : ((withFrame m f ((s.meter m).noted f) s).meter m).state = (s.meter m).state := by
    rw [hmeter, noted_state]
  have counts (hs : (s.meter m).state = .valid ∨ (s.meter m).state = .stale) :
      rangeFault m p (withFrame m f ((s.meter m).noted f) s) =
        if 2 ≤ (s.meter m).badCount then toFault m p f .range s
        else withFrame m f { (s.meter m).noted f with badCount := (s.meter m).badCount + 1 } s := by
    rw [rangeFault_counts (hstate.symm ▸ hs), hmeter, withFrame_setMeter, noted_badCount,
      sendToFault_eq _ (by rcases hs with h | h <;> simp [h])]
  unfold handleReading
  dsimp only
  rw [h, if_neg Bool.false_ne_true, if_pos hl, noteFrame_eq]
  cases hs : (s.meter m).state with
  | unused => exact absurd hs hu
  | starting =>
    rw [rangeFault_of_starting (hstate.trans hs), sendToFault_eq _ (by simp [hs])]
    simp
  | valid =>
    rw [counts (Or.inl hs)]
    simp
  | stale =>
    rw [counts (Or.inr hs)]
    simp
  | faulted =>
    rw [rangeFault_of_faulted (hstate.trans hs)]
    simp

/-- The reading that a frame carries, as it arrives (R18). -/
def ReadingFrame.reading (f : ReadingFrame) (time : Nat) : Reading :=
  { seq := f.seq, luminance := f.luminance, arrival := time }

/-- Meter `m` as an accepted reading leaves its ring, its deadline and its bad-frame count (R20, R21). -/
def State.taken (s : State) (m : Fin 8) (p : Fin 4) (f : ReadingFrame) : Meter :=
  ((s.meter m).noted f).take (f.reading s.tenths) (s.record p).tStale

theorem joinRing_length_eq_three (l : List Reading) (r : Reading) :
    (joinRing l r).length = 3 ↔ l.length = 2 := by
  unfold joinRing
  split
  · simp
  · rw [List.length_append, List.length_tail, List.length_singleton]
    omega

theorem handleReading_accepts (h : f.sensor = false) (hl : f.luminance ≤ 20000) :
    handleReading m p f s =
      acceptReading m p (f.reading s.tenths) (withFrame m f ((s.meter m).noted f) s) := by
  unfold handleReading
  dsimp only
  rw [h, if_neg Bool.false_ne_true, if_neg (Nat.not_lt.mpr hl), noteFrame_eq]
  rfl

theorem acceptReading_of_starting {r : Reading} {u : State} (h : (u.meter m).state = .starting) :
    acceptReading m p r u =
      if (joinRing (u.meter m).ring r).length = 3 then
        meterEnteredValid p (changeMeter m p .readings
          { (u.meter m).take r (u.record p).tStale with
            state := .valid, estimate := some (medianOf (joinRing (u.meter m).ring r)) } u)
      else u.setMeter m ((u.meter m).take r (u.record p).tStale) := by
  unfold acceptReading
  dsimp only
  rw [h]
  rfl

theorem acceptReading_of_valid {r : Reading} {u : State} (h : (u.meter m).state = .valid) :
    acceptReading m p r u =
      evaluate p (u.setMeter m
        { (u.meter m).take r (u.record p).tStale with
          estimate := some (nextEstimate (u.record p).window ((u.meter m).estimate.getD 0)
            (joinRing (u.meter m).ring r)) }) := by
  unfold acceptReading
  dsimp only
  rw [h]
  rfl

theorem acceptReading_recovers {r : Reading} {u : State}
    (h : (u.meter m).state = .stale ∨ (u.meter m).state = .faulted) :
    acceptReading m p r u =
      changeMeter m p .recovered ((u.meter m).restart.take r (u.record p).tStale) u := by
  unfold acceptReading
  dsimp only
  rcases h with h | h <;> rw [h]

/-- STARTING takes readings until it holds three (R20, R25). -/
theorem handleReading_starting (h : f.sensor = false) (hl : f.luminance ≤ 20000)
    (hs : (s.meter m).state = .starting) : handleReading m p f s =
      if (s.meter m).ring.length = 2 then
        meterEnteredValid p (postAll (.meterState p m .readings .starting .valid) (withFrame m f
          { s.taken m p f with
            state := .valid, estimate := some (medianOf (s.taken m p f).ring) } s))
      else withFrame m f (s.taken m p f) s := by
  have hstate : ((withFrame m f ((s.meter m).noted f) s).meter m).state = .starting := by
    rw [withFrame_meter, noted_state, hs]
  have hring : (s.taken m p f).ring.length = 3 ↔ (s.meter m).ring.length = 2 :=
    joinRing_length_eq_three _ _
  rw [handleReading_accepts h hl, acceptReading_of_starting hstate,
    changeMeter_told p _ _ (by rw [hstate]; simp), hstate, withFrame_meter, withFrame_record,
    withFrame_setMeter, withFrame_setMeter]
  simp only [← hring]
  rfl

/-- A VALID meter takes the reading and forms its estimate again (R25). -/
theorem handleReading_valid (h : f.sensor = false) (hl : f.luminance ≤ 20000)
    (hs : (s.meter m).state = .valid) : handleReading m p f s =
      evaluate p (withFrame m f
        { s.taken m p f with
          estimate := some (nextEstimate (s.record p).window ((s.meter m).estimate.getD 0)
            (s.taken m p f).ring) } s) := by
  have hstate : ((withFrame m f ((s.meter m).noted f) s).meter m).state = .valid := by
    rw [withFrame_meter, noted_state, hs]
  rw [handleReading_accepts h hl, acceptReading_of_valid hstate, withFrame_meter, withFrame_record,
    withFrame_setMeter]
  rfl

/-- A STALE or FAULTED meter recovers: STARTING afresh, with the reading as its first (R22). -/
theorem handleReading_recovers (h : f.sensor = false) (hl : f.luminance ≤ 20000)
    (hs : (s.meter m).state = .stale ∨ (s.meter m).state = .faulted) : handleReading m p f s =
      postAll (.meterState p m .recovered (s.meter m).state .starting) (withFrame m f
        { (s.meter m).noted f with
          state := .starting, ring := [f.reading s.tenths], estimate := none, badCount := 0
          staleDeadline := some (s.tenths + 10 * (s.record p).tStale) } s) := by
  have hstate : ((withFrame m f ((s.meter m).noted f) s).meter m).state = (s.meter m).state := by
    rw [withFrame_meter, noted_state]
  have hne : (s.meter m).state ≠ .starting := by rcases hs with h | h <;> simp [h]
  rw [handleReading_accepts h hl, acceptReading_recovers (by rwa [hstate]),
    changeMeter_told p _ _ (by rw [hstate]; exact hne), hstate, withFrame_meter, withFrame_record,
    withFrame_setMeter]
  rfl

end Classes

/-- A frame that is not discarded is handled, and the event ends (R15, R16). -/
theorem exec_readingFrame {m : Fin 8} {p : Fin 4} {f : ReadingFrame} {burst : Burst} {s : State}
    (hf : (burst.frame false).bind readingFrameOf = some f) (hp : s.meterPortal m = some p)
    (hu : (s.meter m).state ≠ .unused) (hd : (s.meter m).duplicates f.seq = false) :
    exec (.readingFrame m burst) s = done (handleReading m p f s) := by
  change execReadingFrame m burst s = _
  unfold execReadingFrame takeReading
  rw [hf, hp]
  dsimp only
  rw [if_neg (by simp [hu, hd])]
  rfl

/-- The source of LIVE that a meter's entry to VALID brings, beside the event told before (R27). -/
theorem meterEnteredValid_told (p : Fin 4) (e : Event) (u : State) :
    meterEnteredValid p (postAll e u) =
      evaluate p (postAll e (u.setEval p { u.eval p with source := .live, holdSince := none })) := by
  rw [meterEnteredValid, State.eval, postAll_evals]
  rfl

/-- Settles O37: the frame is handled by `handleReading_starting` or `handleReading_valid`. -/
theorem estimateRisesToTheMedianAndFallsToTheMean :
    Obligations.EstimateRisesToTheMedianAndFallsToTheMean := by
  intro m p f burst s hf hsensor hlum hp hdup x reading ring next told
  have htaken : (s.taken m p f).ring = ring := rfl
  have htold (y : Meter) : told (s.setMeter m y) = withFrame m f y s := rfl
  refine ⟨fun a b hs hring => ?_, fun e old a b c hs he hring => ?_⟩
  · obtain ⟨hone, hlow, hhigh⟩ := median3_spec a.luminance b.luminance f.luminance
    have hstate : (s.meter m).state = .starting := hs
    have htwo : (s.meter m).ring.length = 2 := congrArg List.length hring
    have hmedian : medianOf (s.taken m p f).ring = median3 f.luminance b.luminance a.luminance := by
      rw [htaken, show ring = [] ++ [a, b, reading] from by simp [ring, hring], medianOf_append]
    have heval (y : Meter) : (withFrame m f y s).eval p = s.eval p :=
      congrArg (rd · p) (withFrame_rest m f y s).evals
    refine ⟨_, hone, hlow, hhigh, ?_⟩
    rw [exec_readingFrame hf hp (by simp [hstate]) hdup, handleReading_starting hsensor hlum hstate,
      if_pos htwo, hmedian, meterEnteredValid_told, heval, htold]
    rfl
  · obtain ⟨hone, hlow, hhigh⟩ := median3_spec a.luminance b.luminance c.luminance
    have hstate : (s.meter m).state = .valid := hs
    have htook (v : Option Nat) : { s.taken m p f with estimate := v } = next .valid v := by
      rw [show MeterState.valid = (s.taken m p f).state from hs.symm]
      rfl
    have hnext : nextEstimate (s.record p).window ((s.meter m).estimate.getD 0) (s.taken m p f).ring =
        if e < median3 c.luminance b.luminance a.luminance then
          median3 c.luminance b.luminance a.luminance
        else if meanOf (s.record p).window ring < e then meanOf (s.record p).window ring else e := by
      rw [nextEstimate, htaken, show (s.meter m).estimate = some e from he, Option.getD_some,
        show medianOf ring = _ from (congrArg medianOf hring).trans (medianOf_append _ _ _ _)]
    refine ⟨_, hone, hlow, hhigh, ?_⟩
    intro newest w
    rw [exec_readingFrame hf hp (by simp [hstate]) hdup, handleReading_valid hsensor hlum hstate, hnext,
      meanOf_eq, htook, htold]

end Sys2Proof.Machine
end

section
namespace Sys2Proof.Machine

/-! ### What a reading frame leaves (O39) -/

/-- From `s` to `t` no clock, set, Trip Unit or port was written, and no meter but `m`. -/
def SameButMeter (m : Fin 8) (s t : State) : Prop :=
  SameClock s t ∧ SameSets s t ∧ SameTrips s t ∧ t.ports = s.ports ∧ ∀ n, n ≠ m → t.meter n = s.meter n

theorem SameButMeter.source (m : Fin 8) (p : Fin 4) (s : State) :
    KeptBySource p (atPortal p) (SameButMeter m s) where
  place := fun _ hk => hk
  scope := fun _ _ _ hk => circuit_portal hk
  zone := fun _ _ _ h => h
  channel := fun _ _ _ _ h => h
  enter := fun _ _ _ _ h => h
  post := fun _ _ _ _ h => h
  selector := fun _ _ h => h
  arbiter := fun _ _ _ h => h
  eval := fun _ _ h => h
  base := fun _ _ h => h

theorem SameButMeter.setMeter {m : Fin 8} {s u : State} (y : Meter) (h : SameButMeter m s u) :
    SameButMeter m s (u.setMeter m y) := by
  obtain ⟨hclock, hsets, htrips, hports, hmeters⟩ := h
  exact ⟨hclock, hsets, htrips, hports, fun n hn => (rd_wr_of_ne _ _ hn.symm).trans (hmeters n hn)⟩

theorem handleReading_around (m : Fin 8) (p : Fin 4) (f : ReadingFrame) (s : State) :
    SameButMeter m s (handleReading m p f s) :=
  handleReading_keeps (SameButMeter.source m p s) m f (fun y _ _ h => h.setMeter y) s
    ⟨⟨rfl, rfl, rfl, rfl, rfl, rfl⟩, ⟨rfl, rfl, rfl, rfl⟩, rfl, rfl, fun _ _ => rfl⟩

theorem SameButMeter.begun {m : Fin 8} {s u : State} (h : SameButMeter m s u) :
    SameButMeter m s (beginTransactions u) := by
  simpa [SameButMeter, SameClock, SameSets, SameTrips, State.meter] using h

/-- Where meters and queues alone were written, the daylight path and the lighting stand. -/
theorem SameButMeters.begun {s u : State} (h : SameButMeters s u) :
    SameSource s (beginTransactions u) ∧ SameStage s (beginTransactions u) ∧
      SameLight s (beginTransactions u) := by
  have hcounter := congrArg State.claimCounter h
  have hzones := h.daylight.zones
  have hchannels := h.daylight.channels
  refine ⟨⟨?_, ?_⟩, ⟨?_, ?_, ?_⟩, ?_, ?_⟩
  · exact (beginTransactions_evals u).trans h.evals
  · exact (beginTransactions_base u).trans h.base
  · exact (beginTransactions_selectors u).trans h.selectors
  · exact (beginTransactions_arbiters u).trans h.arbiters
  · exact (beginTransactions_claimCounter u).trans hcounter
  · exact (beginTransactions_zones u).trans hzones
  · exact (beginTransactions_channels u).trans hchannels

section Rest

variable {m : Fin 8} {p : Fin 4} {f : ReadingFrame} {s : State}

/-- A meter that was not VALID goes to FAULTED without its portal (R23). -/
theorem toFault_rest (cause : MeterCause) (h : (s.meter m).state ≠ .valid) :
    SameButMeters s (toFault m p f cause s) := by
  unfold toFault
  dsimp only
  rw [if_neg h]
  exact SameButMeters.told _ (withFrame_rest m f _ s)

/-- A frame concerns the portal only where the meter is VALID or becomes so (R23, R25, R27). -/
theorem handleReading_rest (hu : (s.meter m).state ≠ .unused) (hv : (s.meter m).state ≠ .valid)
    (hs : (s.meter m).state = .starting → (s.meter m).ring.length ≠ 2) :
    SameButMeters s (handleReading m p f s) := by
  have framed (y : Meter) : SameButMeters s (withFrame m f y s) := withFrame_rest m f y s
  cases hsensor : f.sensor with
  | true =>
    rw [handleReading_sensor hsensor]
    split
    · exact framed _
    · exact toFault_rest _ hv
  | false =>
    by_cases hl : f.luminance ≤ 20000
    · cases hstate : (s.meter m).state with
      | unused => exact absurd hstate hu
      | valid => exact absurd hstate hv
      | starting =>
        rw [handleReading_starting hsensor hl hstate, if_neg (hs hstate)]
        exact framed _
      | stale =>
        rw [handleReading_recovers hsensor hl (Or.inl hstate)]
        exact SameButMeters.told _ (framed _)
      | faulted =>
        rw [handleReading_recovers hsensor hl (Or.inr hstate)]
        exact SameButMeters.told _ (framed _)
    · rw [handleReading_range hsensor (Nat.lt_of_not_le hl) hu]
      split
      · exact framed _
      · split
        · exact toFault_rest _ hv
        · exact framed _

theorem toFault_meter (cause : MeterCause) :
    (toFault m p f cause s).meter m = ((s.meter m).noted f).fault := by
  rw [State.meter, toFault_meters, rd_wr_self]

theorem handleReading_sensor_meter (h : f.sensor = true) : (handleReading m p f s).meter m =
    if (s.meter m).state = .faulted then (s.meter m).noted f else ((s.meter m).noted f).fault := by
  rw [handleReading_sensor h]
  split
  · exact withFrame_meter m f _ s
  · exact toFault_meter _

theorem handleReading_range_meter (h : f.sensor = false) (hl : 20000 < f.luminance)
    (hu : (s.meter m).state ≠ .unused) : (handleReading m p f s).meter m =
      if (s.meter m).state = .faulted then (s.meter m).noted f
      else if (s.meter m).state = .starting ∨ 2 ≤ (s.meter m).badCount then ((s.meter m).noted f).fault
      else { (s.meter m).noted f with badCount := (s.meter m).badCount + 1 } := by
  rw [handleReading_range h hl hu]
  split
  · exact withFrame_meter m f _ s
  · split
    · exact toFault_meter _
    · exact withFrame_meter m f _ s

end Rest

theorem beginTransactions_meter (m : Fin 8) (s : State) :
    (beginTransactions s).meter m = s.meter m := congrArg (rd · m) (beginTransactions_meters s)

theorem joinRing_of_short {l : List Reading} (r : Reading) (h : l.length < 16) :
    joinRing l r = l ++ [r] := if_pos h

/-- A frame that finds no bound meter, or is damaged, is discarded (R15). -/
theorem exec_readingFrame_discarded {m : Fin 8} {burst : Burst} {s : State}
    (h : (burst.frame false).bind readingFrameOf = none ∨ s.meterPortal m = none ∨
      (s.meter m).state = .unused) : exec (.readingFrame m burst) s = .next s := by
  change execReadingFrame m burst s = _
  unfold execReadingFrame
  split
  · rfl
  · next f hf =>
    unfold takeReading
    split
    · rfl
    · next p hp =>
      dsimp only
      have hu : (s.meter m).state = .unused := by simpa [hf, hp] using h
      rw [if_pos (Or.inl hu)]

/-- A duplicate of the newest reading is discarded (R16). -/
theorem exec_readingFrame_duplicate {m : Fin 8} {p : Fin 4} {f : ReadingFrame} {burst : Burst}
    {s : State} (hf : (burst.frame false).bind readingFrameOf = some f) (hp : s.meterPortal m = some p)
    (hd : (s.meter m).duplicates f.seq = true) : exec (.readingFrame m burst) s = .next s := by
  change execReadingFrame m burst s = _
  unfold execReadingFrame takeReading
  rw [hf, hp]
  dsimp only
  rw [if_pos (Or.inr hd)]

/-- Settles O39, by the class of the frame and the state of the meter. -/
theorem readingFrameActsByItsClassAndTheMeterState :
    Obligations.ReadingFrameActsByItsClassAndTheMeterState := by
  intro m burst s x run
  refine ⟨exec_readingFrame_discarded, fun f p hf hp hu => ⟨?_, exec_readingFrame_duplicate hf hp, ?_⟩⟩
  · simp [Meter.duplicates, Option.any_eq_true]
  intro hd noted reading deadline faulted set toFault'
  have hrun : run = done (handleReading m p f s) := exec_readingFrame hf hp hu hd
  obtain ⟨hclock, hsets, htrips, hports, hmeters⟩ := (handleReading_around m p f s).begun
  have hsound (hx : x.state = .valid ∨ x.state = .stale) :
      (s.meter m).state ≠ .faulted ∧ (s.meter m).state ≠ .starting := by
    rcases hx with h | h <;> rw [show (s.meter m).state = _ from h] <;> simp
  refine ⟨fun hs hx => ?_, fun hs hx => ?_, fun hs hl => ⟨fun hx => ?_, fun hx => ?_, fun hx hb => ?_,
    fun hx hb => ?_⟩, fun hs hl hx hlen => ?_, fun hs hl hx => ?_, _, hrun, fun hs => ?_, fun hs hl => ?_,
    hmeters, fun hv hlen => (handleReading_rest hu hv hlen).begun, hclock, hsets, htrips, hports⟩
  · rw [hrun, handleReading_sensor hs, if_pos hx]
    rfl
  · rw [hrun, handleReading_sensor hs, if_neg hx]
    rfl
  · rw [hrun, handleReading_range hs hl hu, if_pos hx]
    rfl
  · have hstate : (s.meter m).state = .starting := hx
    rw [hrun, handleReading_range hs hl hu, if_neg (by simp [hstate]), if_pos (Or.inl hstate)]
    rfl
  · rw [hrun, handleReading_range hs hl hu, if_neg (hsound hx).1, if_pos (Or.inr hb)]
    rfl
  · rw [hrun, handleReading_range hs hl hu, if_neg (hsound hx).1,
      if_neg (not_or.mpr ⟨(hsound hx).2, Nat.not_le.mpr hb⟩)]
    rfl
  · have htaken : (s.taken m p f).ring = x.ring ++ [reading] := 
      joinRing_of_short reading (Nat.lt_trans hlen (by decide))
    have htwo : (s.meter m).ring.length ≠ 2 := Nat.ne_of_lt hlen
    rw [hrun, handleReading_starting hs hl hx, if_neg htwo, ← htaken]
    rfl
  · rw [hrun, handleReading_recovers hs hl hx]
    rfl
  · exact (beginTransactions_meter m _).trans (handleReading_sensor_meter hs)
  · exact (beginTransactions_meter m _).trans (handleReading_range_meter hs hl hu)

end Sys2Proof.Machine
end

section
namespace Sys2Proof.Machine

/-! ### Portals that act one after the other -/

theorem SamePortal.refl (p : Fin 4) (s : State) : SamePortal p s s :=
  ⟨rfl, rfl, rfl, rfl, rfl, rfl, rfl, rfl⟩

theorem SamePortal.trans {p : Fin 4} {s t u : State} (h : SamePortal p s t) (k : SamePortal p t u) :
    SamePortal p s u := by
  obtain ⟨h1, h2, h3, h4, h5, h6, h7, h8⟩ := h
  obtain ⟨k1, k2, k3, k4, k5, k6, k7, k8⟩ := k
  exact ⟨k1.trans h1, k2.trans h2, k3.trans h3, k4.trans h4, k5.trans h5, k6.trans h6, k7.trans h7,
    k8.trans h8⟩

theorem SameAround.trans {s t u : State} (h : SameAround s t) (k : SameAround t u) : SameAround s u := by
  simp_all [SameAround, SameClock, SameSets, SameMeters, SameTrips]

/-- An operation that acts at its portal alone, and on nothing of what `SameAround` speaks of. -/
def ActsAt (f : Fin 4 → State → State) : Prop := ∀ p s, Local p s (f p s) ∧ SameAround s (f p s)

namespace ActsAt

variable {f : Fin 4 → State → State} (h : ActsAt f)
include h

theorem around (l : List (Fin 4)) (s : State) : SameAround s (forEach l f s) :=
  forEach_keeps (P := SameAround s) (fun p _ u hu => hu.trans (h p u).2) s (SameAround.refl s)

/-- A portal that is not named is left as it was. -/
theorem others {l : List (Fin 4)} {q : Fin 4} (hq : q ∉ l) (s : State) :
    SamePortal q s (forEach l f s) :=
  forEach_keeps (P := SamePortal q s)
    (fun p hp u hu => hu.trans ((h p u).1.others q fun hqp => hq (hqp ▸ hp)).1) s (SamePortal.refl q s)

/-- A named portal acts once, from what it was, and stays as that leaves it. -/
theorem at_portal {l : List (Fin 4)} (hn : l.Nodup) {p : Fin 4} (hp : p ∈ l) (s : State) :
    ∃ u, SamePortal p s u ∧ SameAround s u ∧ SamePortal p (f p u) (forEach l f s) :=
  forEach_once (P := fun t => ∃ u, SamePortal p s u ∧ SameAround s u ∧ SamePortal p (f p u) t)
    (Q := fun u => SamePortal p s u ∧ SameAround s u) hn hp
    (fun u hu => ⟨u, hu.1, hu.2, SamePortal.refl p _⟩)
    (fun q _ hq u hu => ⟨hu.1.trans ((h q u).1.others p hq.symm).1, hu.2.trans (h q u).2⟩)
    (fun q _ hq t ⟨u, hu, ha, ht⟩ => ⟨u, hu, ha, ht.trans ((h q t).1.others p hq.symm).1⟩)
    s ⟨SamePortal.refl p s, SameAround.refl s⟩

/-- The repetition as a fold of an operation that agrees with it on portals that have not acted. -/
theorem eq_foldl {g : State → Fin 4 → State} {l : List (Fin 4)} (hn : l.Nodup) {s : State}
    (hg : ∀ p ∈ l, ∀ u, SamePortal p s u → SameAround s u → f p u = g u p) :
    forEach l f s = l.foldl g s := by
  induction l generalizing s with
  | nil => rfl
  | cons a rest ih =>
    obtain ⟨ha, hrest⟩ := List.nodup_cons.mp hn
    rw [List.foldl_cons, ← hg a List.mem_cons_self s (SamePortal.refl a s) (SameAround.refl s)]
    refine ih hrest fun p hp u hu hau => hg p (List.mem_cons_of_mem a hp) u ?_ ((h a s).2.trans hau)
    exact ((h a s).1.others p fun hpa => ha (hpa ▸ hp)).1.trans hu

/-- Portals that have nothing to do can be left out. -/
theorem eq_filter (keep : Fin 4 → Bool) {l : List (Fin 4)} (hn : l.Nodup) {s : State}
    (hk : ∀ p ∈ l, keep p = false → ∀ u, SamePortal p s u → f p u = u) :
    forEach l f s = forEach (l.filter keep) f s := by
  induction l generalizing s with
  | nil => rfl
  | cons a rest ih =>
    obtain ⟨ha, hrest⟩ := List.nodup_cons.mp hn
    have later : forEach rest f (f a s) = forEach (rest.filter keep) f (f a s) :=
      ih hrest fun p hp hkp u hu => hk p (List.mem_cons_of_mem a hp) hkp u
        (((h a s).1.others p fun hpa => ha (hpa ▸ hp)).1.trans hu)
    rw [forEach, later, List.filter_cons]
    cases hka : keep a with
    | true => rfl
    | false => rw [hk a List.mem_cons_self hka s (SamePortal.refl a s), if_neg Bool.false_ne_true]

end ActsAt

theorem allPortals_nodup : allPortals.Nodup := by decide

theorem portals_nodup (h : Header) : h.portals.Nodup := allPortals_nodup.filter _

/-! ### The effective stage and the claims after an evaluation -/

/-- The effective stage of portal `p` is the one that a resolution gives (R73). -/
def Settled (p : Fin 4) (s : State) : Prop := (s.arbiter p).effective = (s.arbiter p).resolved

theorem resolve_settled (p : Fin 4) (s : State) : Settled p (resolve p s) := by
  rw [Settled, resolve_arbiter]
  rfl

/-- What the Stage Selector is handed moves the stage with a resolution, or not at all (R72). -/
theorem handOver_settled {p : Fin 4} {s : State} (base : BaseState) (status : SourceStatus)
    (h : Settled p s) : Settled p (handOver p base status s) := by
  have moved (stage : Nat) (u : State) : Settled p (moveTo p stage u) := resolve_settled p _
  have offered (demand : Nat) : Settled p (offer p demand s) := by
    unfold offer
    dsimp only
    split
    · exact moved _ _
    · unfold downward
      dsimp only
      split
      · exact moved _ _
      · exact h
  unfold handOver
  dsimp only
  split
  · split
    · exact offered _
    · split
      · split
        · exact h
        · exact moved _ _
      · split
        · exact moved _ _
        · split
          · exact offered _
          · exact h
  · exact h

theorem evaluate_settled {p : Fin 4} {s : State} (h : Settled p s) : Settled p (evaluate p s) := by
  refine handOver_settled _ _ ?_
  obtain ⟨⟨-, -, -, ⟨-, harbiters, -⟩, -⟩, -⟩ := evaluateOnly_same p s
  rw [Settled, State.arbiter, harbiters]
  exact h

theorem claimsChanged_false (p : Fin 4) (s : State) : claimsChanged p false s = resolve p s := by
  unfold claimsChanged
  exact if_neg Bool.false_ne_true

theorem claimsChanged_true (p : Fin 4) (s : State) :
    claimsChanged p true s = evaluate p (resolve p s) := by
  unfold claimsChanged
  exact if_pos rfl

theorem claimsChanged_settled (p : Fin 4) (injection : Bool) (s : State) :
    Settled p (claimsChanged p injection s) := by
  unfold claimsChanged
  dsimp only
  split
  · exact evaluate_settled (resolve_settled p s)
  · exact resolve_settled p s

theorem claimsChanged_claims (p : Fin 4) (injection : Bool) (s : State) :
    ((claimsChanged p injection s).arbiter p).claims = (s.arbiter p).claims :=
  claimsChanged_keeps (P := fun t => (t.arbiter p).claims = (s.arbiter p).claims) (C := atPortal p)
    { place := fun _ h => h, scope := fun _ _ _ h => circuit_portal h
      zone := fun _ _ _ h => h, channel := fun _ _ _ _ h => h, enter := fun _ _ _ _ h => h
      post := fun _ _ _ _ h => h, selector := fun _ _ h => h, eval := fun _ _ h => h
      base := fun _ _ h => h
      arbiter := fun x u hx hu => by
        rw [State.arbiter, State.setArbiter_arbiters, rd_wr_self, hx]
        exact hu }
    injection s rfl

/-- A portal evaluated beneath an INJECT claim takes its argument (R29 to R31), and runs (R2). -/
theorem evaluate_injected {p : Fin 4} {s : State} {c : Claim} (h : (s.arbiter p).topInject = some c) :
    ((evaluate p s).eval p).status = .injected ∧
      ((evaluate p s).eval p).luminance = c.argument.getD 0 ∧
      ((evaluate p s).eval p).demand = c.argument.getD 0 * (s.record p).k / 100 ∧
      (evaluate p s).baseOf p = if s.baseOf p = .starting then .running else s.baseOf p := by
  obtain ⟨hstatus, hlum⟩ := statusOf_injected h
  obtain ⟨_, _, _, heval, -⟩ := evaluate_eval p s
  have hinjected : ((evaluate p s).eval p).status = .injected := by rw [heval, ← hstatus]
  obtain ⟨hstarts, hstays, -⟩ := evaluationStartsThePortalAndHandsTheDemandOver p s
  refine ⟨hinjected, by rw [heval, hlum], by rw [heval, hstatus, hlum]; rfl, ?_⟩
  split
  · next hb => exact (hstarts ⟨hb, Or.inr hinjected⟩).1
  · next hb => exact (hstays fun hs => hb hs.1).1

/-! ### Claims that leave a list (R75 to R78) -/

/-- An operation that posts events and does nothing else. -/
def Tells (tell : Claim → State → State) : Prop :=
  ∀ P : State → Prop, KeptByPosts P → ∀ c s, P s → P (tell c s)

/-- From `s` to `u` nothing was written but queues. -/
def SameButQueues (s u : State) : Prop := { u with queues := s.queues } = s

/-- The state in which the portal resolves: the claims gone, each told. -/
def claimsGone (p : Fin 4) (gone : Claim → Bool) (tell : Claim → State → State) (s : State) : State :=
  forEach ((s.arbiter p).claims.filter gone) tell
    (setClaims p ((s.arbiter p).claims.filter fun c => !gone c) s)

section Remove

variable {p : Fin 4} {gone : Claim → Bool} {tell : Claim → State → State} {s : State}

theorem removeClaims_of_any (h : (s.arbiter p).claims.any gone = true) :
    removeClaims p gone tell s =
      claimsChanged p ((s.arbiter p).topInject.any gone) (claimsGone p gone tell s) := if_pos h

theorem removeClaims_of_none (h : (s.arbiter p).claims.any gone = false) :
    removeClaims p gone tell s = s := if_neg (by simp [h])

theorem any_of_topInject (h : (s.arbiter p).topInject.any gone = true) :
    (s.arbiter p).claims.any gone = true := by
  obtain ⟨c, hc, hg⟩ := Option.any_eq_true _ _ |>.mp h
  have hmem := List.mem_of_find?_eq_some hc
  exact List.any_eq_true.mpr ⟨c, List.mem_reverse.mp hmem, hg⟩

variable (ht : Tells tell)
include ht

theorem claimsGone_rest : SameButQueues
    (setClaims p ((s.arbiter p).claims.filter fun c => !gone c) s) (claimsGone p gone tell s) :=
  forEach_keeps (P := SameButQueues _) (fun c _ u hu => ht _ (fun _ _ _ _ h => h) c u hu) _ rfl

theorem claimsGone_arbiter : (claimsGone p gone tell s).arbiter p =
    { s.arbiter p with claims := (s.arbiter p).claims.filter fun c => !gone c } := by
  have h := congrArg State.arbiters (claimsGone_rest (p := p) (gone := gone) (s := s) ht)
  exact (congrArg (rd · p) h).trans (rd_wr_self _ _ _)

theorem claimsGone_source : SameSource s (claimsGone p gone tell s) := by
  have h := claimsGone_rest (p := p) (gone := gone) (s := s) ht
  have he := congrArg State.evals h
  have hb := congrArg State.base h
  exact ⟨he, hb⟩

theorem claimsGone_active : (claimsGone p gone tell s).active = s.active := by
  have h := congrArg State.active (claimsGone_rest (p := p) (gone := gone) (s := s) ht)
  exact h

theorem removeClaims_local : Local p s (removeClaims p gone tell s) :=
  removeClaims_keeps (Local.source p s) gone tell (fun c _ h => ht _ Local.posts c _ h)
    (fun _ h => h.setArbiter _) s (Local.refl p s)

theorem removeClaims_around : SameAround s (removeClaims p gone tell s) :=
  removeClaims_keeps (SameAround.source p s) gone tell
    (fun c _ h => ht _ (SameAround.source p s).post c _ h) (fun _ h => h) s (SameAround.refl s)

theorem removeClaims_claims : ((removeClaims p gone tell s).arbiter p).claims =
    (s.arbiter p).claims.filter fun c => !gone c := by
  cases h : (s.arbiter p).claims.any gone with
  | true => rw [removeClaims_of_any h, claimsChanged_claims, claimsGone_arbiter ht]
  | false =>
    rw [removeClaims_of_none h, List.filter_eq_self.mpr]
    intro c hc
    have := List.any_eq_false.mp h c hc
    simpa using this

/-- A removal that spares the topmost INJECT claim leaves the Portal Evaluator; one that takes it
evaluates the portal by what remains (R30, R75). -/
theorem removeClaims_injectionAfter : InjectionAfter p gone s (removeClaims p gone tell s) := by
  refine ⟨fun hno => ?_, fun hyes => ?_⟩
  · cases h : (s.arbiter p).claims.any gone with
    | true =>
      have hspared : (s.arbiter p).topInject.any gone = false := hno
      rw [removeClaims_of_any h, hspared, claimsChanged_false]
      exact congrArg (rd · p)
        ((resolve_source p (claimsGone p gone tell s)).1.trans (claimsGone_source ht).1)
    | false => rw [removeClaims_of_none h]
  · have htop : (s.arbiter p).topInject.any gone = true := hyes
    have hevalp : (resolve p (claimsGone p gone tell s)).eval p = s.eval p :=
      congrArg (rd · p)
        ((resolve_source p (claimsGone p gone tell s)).1.trans (claimsGone_source ht).1)
    have hrecord : (resolve p (claimsGone p gone tell s)).record p = s.record p := by
      obtain ⟨-, ⟨hactive, -⟩, -⟩ := resolve_around p (claimsGone p gone tell s)
      rw [State.record, hactive, claimsGone_active ht]
    have hclaims : ((resolve p (claimsGone p gone tell s)).arbiter p).claims =
        (s.arbiter p).claims.filter fun c => !gone c := by
      rw [resolve_arbiter, claimsGone_arbiter ht]
    have hremoved : removeClaims p gone tell s = evaluate p (resolve p (claimsGone p gone tell s)) := by
      rw [removeClaims_of_any (any_of_topInject htop), htop, claimsChanged_true]
    rw [hremoved]
    refine ⟨fun c hc => ?_, fun hnone => ?_⟩
    · rw [← hclaims] at hc
      have hnext : ((resolve p (claimsGone p gone tell s)).arbiter p).topInject = some c := hc
      obtain ⟨hstatus, hlum, hdemand, -⟩ := evaluate_injected hnext
      exact ⟨hstatus, hlum, hrecord ▸ hdemand⟩
    · rw [← hclaims] at hnone
      obtain ⟨_, _, _, heval, -⟩ := evaluate_eval p (resolve p (claimsGone p gone tell s))
      have hnext : ((resolve p (claimsGone p gone tell s)).arbiter p).topInject = none := hnone
      have hstatus := congrArg Evaluator.status heval
      rw [statusOf_source hnext, hevalp] at hstatus
      exact hstatus

omit ht in
theorem removeClaims_settled (h : (s.arbiter p).claims.any gone = true) :
    Settled p (removeClaims p gone tell s) := by
  rw [removeClaims_of_any h]
  exact claimsChanged_settled p _ _

end Remove

/-- `InjectionAfter` speaks of the portal alone. -/
theorem InjectionAfter.congr {p : Fin 4} {gone : Claim → Bool} {s t u v : State}
    (hs : SamePortal p s u) (ht : SamePortal p v t) (h : InjectionAfter p gone u v) :
    InjectionAfter p gone s t := by
  obtain ⟨-, hseval, -, hsarb, -, -, hsset, -⟩ := hs
  obtain ⟨-, hteval, -⟩ := ht
  have hrecord : u.record p = s.record p := congrArg PortalSet.record hsset
  unfold InjectionAfter at h ⊢
  rw [hsarb, hseval, hrecord] at h
  rwa [hteval]

/-- What claims leaving a list do, in the words of the statements. -/
theorem claimsLeave_eq {p : Fin 4} {gone : Claim → Bool} {tell : Claim → State → State}
    {tell' : State → Claim → State} (h : ∀ c, gone c = true → ∀ v, tell' v c = tell c v) (s : State) :
    ClaimsLeave p gone tell' s = removeClaims p gone tell s := by
  have fold : ∀ (l : List Claim) (u : State), (∀ c ∈ l, gone c = true) →
      l.foldl tell' u = forEach l tell u := by
    intro l
    induction l with
    | nil => exact fun u _ => rfl
    | cons c rest ih =>
      intro u hl
      rw [List.foldl_cons, h c (hl c List.mem_cons_self)]
      exact ih _ fun d hd => hl d (List.mem_cons_of_mem c hd)
  unfold ClaimsLeave
  dsimp only
  rw [fold _ _ fun c hc => (List.mem_filter.mp hc).2]
  cases htop : (s.arbiter p).topInject.any gone with
  | true =>
    rw [removeClaims_of_any (any_of_topInject htop), htop, claimsChanged_true, claimsGone, setClaims]
    exact if_pos htop
  | false =>
    rw [if_neg (by simpa [Arbiter.topInject] using htop)]
    cases hany : (s.arbiter p).claims.any gone with
    | true => rw [removeClaims_of_any hany, htop, claimsChanged_false, if_pos rfl, claimsGone, setClaims]
    | false => rw [removeClaims_of_none hany, if_neg Bool.false_ne_true]

end Sys2Proof.Machine
end

section
namespace Sys2Proof.Machine

/-! ### WITHDRAW and WITHDRAW_ANY (O33) -/

theorem mem_holders {s : State} {n : Nat} {p : Fin 4} :
    p ∈ s.holders n ↔ ∃ c ∈ (s.arbiter p).claims, c.number = n := by
  simp [State.holders, mem_allPortals, Arbiter.holds]

theorem holders_eq_nil {s : State} {n : Nat} :
    s.holders n = [] ↔ ∀ p, ∀ c ∈ (s.arbiter p).claims, c.number ≠ n := by
  simp [List.eq_nil_iff_forall_not_mem, mem_holders]

theorem owns_iff {s : State} {seat : Seat} {n : Nat} :
    s.owns seat n = true ↔ ∃ p, ∃ c ∈ (s.arbiter p).claims, c.number = n ∧ c.seat = seat := by
  simp [State.owns, mem_allPortals]

/-- The removal of a number leaves its portal as it was, or takes the copies from its list. -/
theorem removeNumber_acts (n : Nat) {tell : Fin 4 → Claim → State → State} (ht : ∀ p, Tells (tell p)) :
    ActsAt fun p s => removeClaims p (fun c => c.number == n) (tell p) s :=
  fun p _ => ⟨removeClaims_local (ht p), removeClaims_around (ht p)⟩

section RemoveNumber

variable (n : Nat) {tell : Fin 4 → Claim → State → State} (ht : ∀ p, Tells (tell p)) (s : State)

theorem removeNumber_fold {tell' : Fin 4 → State → Claim → State}
    (htell : ∀ p c, c.number = n → ∀ v, tell' p v c = tell p c v) : removeNumber n tell s =
      ([0, 1, 2, 3] : List (Fin 4)).foldl
        (fun u p => ClaimsLeave p (fun c => c.number == n) (tell' p) u) s := by
  have each (p : Fin 4) (u : State) : removeClaims p (fun c => c.number == n) (tell p) u =
      ClaimsLeave p (fun c => c.number == n) (tell' p) u :=
    (claimsLeave_eq (fun c hc => htell p c (beq_iff_eq.mp hc)) u).symm
  simp only [removeNumber, allPortals, forEach, each, List.foldl_cons, List.foldl_nil]

include ht

/-- What the removal of a number leaves at each portal and around them (R66, R72, R75 to R78). -/
theorem removeNumber_spec :
    (∀ p, InjectionAfter p (fun c => c.number == n) s (removeNumber n tell s)) ∧
    (∀ p, ((removeNumber n tell s).arbiter p).claims =
      (s.arbiter p).claims.filter fun c => c.number != n) ∧
    (∀ p ∈ s.holders n, Settled p (removeNumber n tell s)) ∧
    (∀ p, p ∉ s.holders n → (removeNumber n tell s).arbiter p = s.arbiter p ∧
      (removeNumber n tell s).selector p = s.selector p) ∧
    SameAround s (removeNumber n tell s) := by
  have acts := removeNumber_acts n ht
  have at_portal (p : Fin 4) := acts.at_portal allPortals_nodup (mem_allPortals p) s
  refine ⟨fun p => ?_, fun p => ?_, fun p hp => ?_, fun p hp => ?_, acts.around _ s⟩ <;>
    obtain ⟨u, hu, -, hafter⟩ := at_portal p
  · exact InjectionAfter.congr hu hafter (removeClaims_injectionAfter (ht p))
  · obtain ⟨-, -, -, huarb, -⟩ := hu
    obtain ⟨-, -, -, harb, -⟩ := hafter
    rw [removeNumber, harb, removeClaims_claims (ht p), huarb]
    rfl
  · obtain ⟨-, -, -, huarb, -⟩ := hu
    obtain ⟨-, -, -, harb, -⟩ := hafter
    have hany : (u.arbiter p).claims.any (fun c => c.number == n) = true := by
      rw [huarb]
      simpa using mem_holders.mp hp
    have hsettled : Settled p (removeClaims p (fun c => c.number == n) (tell p) u) :=
      removeClaims_settled hany
    rw [Settled, removeNumber, harb]
    exact hsettled
  · obtain ⟨-, -, huselector, huarb, -⟩ := hu
    obtain ⟨-, -, hselector, harb, -⟩ := hafter
    have hnone : (u.arbiter p).claims.any (fun c => c.number == n) = false := by
      rw [huarb]
      simpa [mem_holders] using hp
    have hsame : removeClaims p (fun c => c.number == n) (tell p) u = u := removeClaims_of_none hnone
    rw [hsame] at hselector harb
    exact ⟨harb.trans huarb, hselector.trans huselector⟩

/-- A number that one portal holds leaves that portal's list alone. -/
theorem removeNumber_single {p : Fin 4} (h : s.holders n = [p]) :
    removeNumber n tell s = removeClaims p (fun c => c.number == n) (tell p) s := by
  have hskip := (removeNumber_acts n ht).eq_filter (fun p => (s.arbiter p).holds n) allPortals_nodup
    (s := s) fun q _ hq u hu => by
      obtain ⟨-, -, -, harb, -⟩ := hu
      refine removeClaims_of_none ?_
      rw [harb]
      exact hq
  rw [removeNumber, hskip, show allPortals.filter (fun p => (s.arbiter p).holds n) = [p] from h]
  rfl

end RemoveNumber

/-- A claim that is not INJECT and whose absence changes no stage leaves with its event alone (R74). -/
theorem removeClaims_plain {p : Fin 4} {gone : Claim → Bool} {tell : Claim → State → State} {s : State}
    {c : Claim} (ht : Tells tell) (hc : (s.arbiter p).claims.filter gone = [c]) (hkind : c.kind ≠ .inject)
    {low : Arbiter}
    (hlow : low = { s.arbiter p with claims := (s.arbiter p).claims.filter fun c => !gone c })
    (hstage : low.resolved = low.effective) :
    removeClaims p gone tell s = tell c (s.setArbiter p low) := by
  have hmem : c ∈ (s.arbiter p).claims.filter gone := by simp [hc]
  obtain ⟨hin, hgone⟩ := List.mem_filter.mp hmem
  have htop : (s.arbiter p).topInject.any gone = false := by
    rw [Option.any_eq_false]
    intro x hx
    rw [Bool.eq_false_iff]
    intro hg
    have hinject : x.kind = .inject := by simpa using List.find?_some hx
    have hxin : x ∈ (s.arbiter p).claims.filter gone :=
      List.mem_filter.mpr ⟨List.mem_reverse.mp (List.mem_of_find?_eq_some hx), hg⟩
    rw [hc, List.mem_singleton] at hxin
    exact hkind (hxin ▸ hinject)
  have hafter : claimsGone p gone tell s = tell c (s.setArbiter p low) := by
    rw [claimsGone, hc, setClaims, ← hlow]
    rfl
  have harb : (claimsGone p gone tell s).arbiter p = low := (claimsGone_arbiter ht).trans hlow.symm
  rw [removeClaims_of_any (List.any_eq_true.mpr ⟨c, hin, hgone⟩), htop, claimsChanged_false, ← hafter]
  exact resolve_unchanged (harb ▸ hstage)

theorem tells_nothing (_ : Fin 4) : Tells fun _ s => s := fun _ _ _ _ h => h

theorem tellWithdrawn_tells (p : Fin 4) : Tells (tellWithdrawn p) := by
  intro P hp c s hs
  unfold tellWithdrawn
  split
  · exact hs
  · exact hp _ _ _ (by simp [Event.kind]) hs

theorem exec_withdraw {seat : Seat} {h : Header} {b : List Byte} {s : State}
    (hp : (s.port seat).phase = .header) (hb : b.length = 2) :
    exec (.withdraw seat h b) s = done (withdrawCommand seat h (wordAt b 0) s) :=
  congrArg done (withRecord_run hp hb _)

theorem exec_withdrawAny {h : Header} {b : List Byte} {s : State}
    (hp : (s.port .L).phase = .header) (hb : b.length = 2) :
    exec (.withdrawAny .L h b) s = done (withdrawAnyCommand .L h (wordAt b 0) s) :=
  congrArg done (withRecord_run hp hb _)

section Checks

variable {seat : Seat} {h : Header} {n : Nat} {s : State}

/-- The checks of WITHDRAW in their order (R77). -/
theorem withdrawCommand_eq : withdrawCommand seat h n s =
    if h.records ≠ 1 ∨ n = 0 then denied seat .badValue 0 s
    else if s.holders n = [] then denied seat .noClaim 0 s
    else if s.owns seat n = false then denied seat .notOwner 0 s
    else granted seat (maskOf (s.holders n)) true (removeNumber n (fun _ _ s => s) s) := by
  simp only [withdrawCommand, refuse_eq_denied, accept_eq_granted, Bool.not_eq_true']

/-- The checks of WITHDRAW_ANY from Seat L (R78). -/
theorem withdrawAnyCommand_eq : withdrawAnyCommand seat h n s =
    if h.records ≠ 1 ∨ n = 0 then denied seat .badValue 0 s
    else if s.holders n = [] then denied seat .noClaim 0 s
    else granted seat (maskOf (s.holders n)) true (removeNumber n tellWithdrawn s) := by
  simp only [withdrawAnyCommand, refuse_eq_denied, accept_eq_granted]

end Checks

theorem holders_ne_nil {s : State} {n : Nat} (h : ∃ p, ∃ c ∈ (s.arbiter p).claims, c.number = n) :
    s.holders n ≠ [] := by
  obtain ⟨p, c, hc, hn⟩ := h
  exact fun hnil => holders_eq_nil.mp hnil p c hc hn

/-- Settles O33: both commands by their checks, and the removal by `removeNumber_spec`. -/
theorem withdrawalRemovesEveryCopy : Obligations.WithdrawalRemovesEveryCopy := by
  refine ⟨fun seat h b s hp hb => ?_, fun h b s => ⟨fun seat hs hp => ?_, fun hp hb => ?_⟩⟩
  · intro n deny
    have hexec := exec_withdraw (h := h) hp hb
    rw [withdrawCommand_eq] at hexec
    refine ⟨fun hv => ?_, fun hr hn hno => ?_, fun hr hn hsome hno => ?_, fun hr hn hown => ?_⟩
    · exact hexec.trans (congrArg done (if_pos hv))
    all_goals rw [if_neg (not_or.mpr ⟨not_not.mpr hr, hn⟩)] at hexec
    · exact hexec.trans (congrArg done (if_pos (holders_eq_nil.mpr hno)))
    · have hnot : s.owns seat n = false := by
        rw [Bool.eq_false_iff, ne_eq, owns_iff]
        rintro ⟨p, c, hc, hcn, hseat⟩
        exact hno p c hc hcn hseat
      rw [if_neg (holders_ne_nil hsome), if_pos hnot] at hexec
      exact hexec
    · have howns : s.owns seat n = true := owns_iff.mpr hown
      obtain ⟨p, c, hc, hcn, -⟩ := hown
      rw [if_neg (holders_ne_nil ⟨p, c, hc, hcn⟩), if_neg (by simp [n, howns])] at hexec
      obtain ⟨hinjection, hclaims, hsettled, hothers, hclock, hsets, hmeters, htrips, hports, hcounter⟩ :=
        removeNumber_spec n tells_nothing s
      exact ⟨_, hexec, removeNumber_fold n s fun _ _ _ _ => rfl, hinjection, hclaims, hsettled, hothers,
        hclock, hsets, hmeters, htrips, hports, hcounter⟩
  · exact (if_pos hs).trans (congrArg _ (inHeader_run hp _))
  · intro n deny
    have hexec := exec_withdrawAny (h := h) hp hb
    rw [withdrawAnyCommand_eq] at hexec
    refine ⟨fun hv => ?_, fun hr hn hno => ?_, fun hr hn hsome => ?_⟩
    · exact hexec.trans (congrArg done (if_pos hv))
    all_goals rw [if_neg (not_or.mpr ⟨not_not.mpr hr, hn⟩)] at hexec
    · exact hexec.trans (congrArg done (if_pos (holders_eq_nil.mpr hno)))
    · rw [if_neg (holders_ne_nil hsome)] at hexec
      obtain ⟨hinjection, hclaims, hsettled, hothers, hclock, hsets, hmeters, htrips, hports, hcounter⟩ :=
        removeNumber_spec n tellWithdrawn_tells s
      refine ⟨_, hexec, removeNumber_fold n s fun p c hc v => ?_, hinjection, hclaims, hsettled, hothers,
        hclock, hsets, hmeters, htrips, hports, hcounter, fun p c low hone hc hkind hlow hstage => ?_⟩
      · rw [← hc]
        rfl
      · have hcn : c.number = n := by
          have hmem : c ∈ (s.arbiter p).claims.filter fun c => c.number == n := by simp [hc]
          simpa using (List.mem_filter.mp hmem).2
        rw [removeNumber_single n tellWithdrawn_tells s hone,
          removeClaims_plain (tellWithdrawn_tells p) hc hkind hlow hstage, ← hcn]
        rfl

end Sys2Proof.Machine
end

section
namespace Sys2Proof.Machine

/-! ### PUSH_CLAIM (O31) -/

/-- The kind bytes of R176 in their order. -/
theorem claimKindOf_eq (n : Nat) :
    claimKindOf n = ([.force, .floor, .cap, .freeze, .inject] : List ClaimKind)[n]? := by
  match n with
  | 0 | 1 | 2 | 3 | 4 => rfl
  | _ + 5 => rfl

/-- A request whose argument, tie and deadline lie in their ranges is not refused (R69). -/
theorem refusal_eq_none {q : ClaimRequest}
    (hstaged : (q.kind == .force || q.kind == .floor || q.kind == .cap) = true → q.argument ≤ 11)
    (hdeadline : ∀ d ∈ q.deadline, d ≤ 86400)
    (hinject : q.kind = .inject → q.argument ≤ 20000 ∧ q.kept = false ∧ ∃ d ∈ q.deadline, d ≤ 3600) :
    q.refusal = none := by
  obtain ⟨kind, kept, argument, deadline⟩ := q
  dsimp only at hstaged hdeadline hinject
  have hlate (d : Nat) (hd : d ∈ deadline) : ¬ 86400 < d := Nat.not_lt.mpr (hdeadline d hd)
  cases kind with
  | inject =>
    obtain ⟨harg, hkept, d, hd, hle⟩ := hinject rfl
    have hlong := hlate d hd
    cases hd
    simp [ClaimRequest.refusal, hkept, Nat.not_lt.mpr harg, Nat.not_lt.mpr hle, hlong]
  | freeze => cases deadline <;> simp_all [ClaimRequest.refusal]
  | force | floor | cap =>
    have harg : ¬ 11 < argument := Nat.not_lt.mpr (hstaged rfl)
    cases deadline with
    | none => simp [ClaimRequest.refusal, harg]
    | some d => simp [ClaimRequest.refusal, harg, hlate d rfl]

/-- A push that passes its checks is accepted (R69 to R71). -/
theorem exec_pushClaim {seat : Seat} {h : Header} {b : List Byte} {q : ClaimRequest} {s : State}
    (hp : (s.port seat).phase = .header) (hb : b.length = 8) (hr : h.records = 1)
    (hn : h.portals ≠ []) (hq : claimRequest b = some q) (hrefusal : q.refusal = none)
    (hquota : ∀ p ∈ h.portals, (s.arbiter p).countOf seat < 4) :
    exec (.pushClaim seat h b) s = done (acceptPush seat h q s) := by
  have hfind : h.portals.find? (fun p => decide (4 ≤ (s.arbiter p).countOf seat)) = none := by
    rw [List.find?_eq_none]
    intro p hp
    simpa using hquota p hp
  have hcommand : pushClaimCommand seat h b s = acceptPush seat h q s := by
    unfold pushClaimCommand
    rw [if_neg (not_not.mpr hr), if_neg hn, hq]
    dsimp only
    rw [hrefusal]
    dsimp only
    rw [hfind]
  exact congrArg done ((withRecord_run hp hb _).trans hcommand)

/-- What an accepted push answers once its copies have joined (R66, R71). -/
theorem acceptPush_eq (seat : Seat) (h : Header) (q : ClaimRequest) (s : State) :
    let number := s.allocate s.claimCounter 49
    let t := forEach h.portals (pushCopy q seat number) { s with claimCounter := nextNumber number }
    t.ports = s.ports → acceptPush seat h q s =
      answer seat .ok number true true
        (s.raisedFlag seat || h.portals.any fun p => q.above (s.set p).top) false t := by
  intro number t hports
  have hflag : t.raisedFlag seat = s.raisedFlag seat := by
    rw [State.raisedFlag, State.port, hports]
  rw [← hflag]
  exact accept_eq_answer seat number true _ false t

theorem SameAround.tenths {s t : State} (h : SameAround s t) : t.tenths = s.tenths := by
  obtain ⟨⟨hnow, -⟩, -⟩ := h
  rw [State.tenths, hnow]
  rfl

section Push

variable (q : ClaimRequest) (seat : Seat) (number : Nat)

theorem pushCopy_acts : ActsAt (pushCopy q seat number) := fun p s =>
  ⟨claimsChanged_keeps (Local.source p s) _ _ ((Local.refl p s).setArbiter _),
    claimsChanged_keeps (SameAround.source p s) _ (setClaims p _ s) (SameAround.refl s)⟩

variable (p : Fin 4) (s : State)

theorem pushCopy_claims : ((pushCopy q seat number p s).arbiter p).claims =
    (s.arbiter p).claims ++ [q.copy seat number s.tenths (s.arbiter p).effective] := by
  rw [pushCopy, claimsChanged_claims]
  exact congrArg Arbiter.claims (rd_wr_self _ _ _)

theorem pushCopy_settled : Settled p (pushCopy q seat number p s) := claimsChanged_settled p _ _

variable {q}

/-- A claim of another kind than INJECT leaves the evaluators and the base states (R75). -/
theorem pushCopy_source (h : q.kind ≠ .inject) : SameSource s (pushCopy q seat number p s) := by
  have hkind : (q.kind == ClaimKind.inject) = false := by simp [h]
  rw [pushCopy, hkind, claimsChanged_false]
  exact resolve_source p _

/-- A pushed INJECT claim is the topmost one, and the portal takes its argument (R29 to R31, R75). -/
theorem pushCopy_injected (h : q.kind = .inject) :
    ((pushCopy q seat number p s).eval p).status = .injected ∧
      ((pushCopy q seat number p s).eval p).luminance = q.argument ∧
      ((pushCopy q seat number p s).eval p).demand = q.argument * (s.record p).k / 100 ∧
      (pushCopy q seat number p s).baseOf p =
        if s.baseOf p = .starting then .running else s.baseOf p := by
  obtain ⟨w, hw⟩ : ∃ w, w = resolve p (setClaims p ((s.arbiter p).claims ++
      [q.copy seat number s.tenths (s.arbiter p).effective]) s) := ⟨_, rfl⟩
  have hpush : pushCopy q seat number p s = evaluate p w := by
    rw [hw, pushCopy, h]
    exact claimsChanged_true p _
  have hclaims : (w.arbiter p).claims =
      (s.arbiter p).claims ++ [q.copy seat number s.tenths (s.arbiter p).effective] := by
    rw [hw, resolve_arbiter]
    exact congrArg Arbiter.claims (rd_wr_self _ _ _)
  have htop : (w.arbiter p).topInject =
      some (q.copy seat number s.tenths (s.arbiter p).effective) := by
    rw [Arbiter.topInject, hclaims, List.reverse_append, List.reverse_singleton, List.singleton_append,
      List.find?_cons_of_pos]
    simp [ClaimRequest.copy, h]
  have hargument : (q.copy seat number s.tenths (s.arbiter p).effective).argument = some q.argument := by
    simp [ClaimRequest.copy, h]
  have hrecord : w.record p = s.record p := by
    obtain ⟨-, ⟨hactive, -⟩, -⟩ := resolve_around p (setClaims p ((s.arbiter p).claims ++
      [q.copy seat number s.tenths (s.arbiter p).effective]) s)
    rw [hw, State.record, hactive]
    rfl
  have hbase : w.baseOf p = s.baseOf p := by
    rw [hw]
    exact congrArg (rd · p) (resolve_source p _).2
  obtain ⟨hstatus, hlum, hdemand, hran⟩ := evaluate_injected htop
  rw [hargument] at hlum hdemand
  rw [hrecord] at hdemand
  rw [hbase] at hran
  rw [hpush]
  exact ⟨hstatus, hlum, hdemand, hran⟩

/-! The copies of all named portals. -/

variable (q) {p} {l : List (Fin 4)} (hl : l.Nodup)

theorem pushCopies_around : SameAround s (forEach l (pushCopy q seat number) s) :=
  (pushCopy_acts q seat number).around l s

theorem pushCopies_others (hp : p ∉ l) : SamePortal p s (forEach l (pushCopy q seat number) s) :=
  (pushCopy_acts q seat number).others hp s

variable {q} in
theorem pushCopies_source (h : q.kind ≠ .inject) :
    SameSource s (forEach l (pushCopy q seat number) s) := by
  refine forEach_keeps (P := SameSource s) (fun p _ u hu => ?_) s ⟨rfl, rfl⟩
  obtain ⟨he, hb⟩ := pushCopy_source seat number p u h
  exact ⟨he.trans hu.1, hb.trans hu.2⟩

include hl

variable {q} in
theorem pushCopies_injected (h : q.kind = .inject) (hp : p ∈ l) :
    let t := forEach l (pushCopy q seat number) s
    (t.eval p).status = .injected ∧ (t.eval p).luminance = q.argument ∧
      (t.eval p).demand = q.argument * (s.record p).k / 100 ∧
      t.baseOf p = if s.baseOf p = .starting then .running else s.baseOf p := by
  obtain ⟨u, ⟨hbase, -, -, -, -, -, hset, -⟩, -, ⟨hbaset, hevalt, -⟩⟩ :=
    (pushCopy_acts q seat number).at_portal hl hp s
  have hrecord : u.record p = s.record p := congrArg PortalSet.record hset
  intro t
  rw [hevalt, hbaset, ← hrecord, ← hbase]
  exact pushCopy_injected seat number p u h

theorem pushCopies_claims (hp : p ∈ l) :
    let t := forEach l (pushCopy q seat number) s
    (t.arbiter p).claims = (s.arbiter p).claims ++ [q.copy seat number s.tenths (s.arbiter p).effective] ∧
      Settled p t := by
  obtain ⟨u, ⟨-, -, -, harb, -⟩, hu, ⟨-, -, -, harbt, -⟩⟩ :=
    (pushCopy_acts q seat number).at_portal hl hp s
  intro t
  rw [Settled, harbt, ← harb, ← hu.tenths]
  exact ⟨pushCopy_claims q seat number p u, pushCopy_settled q seat number p u⟩

/-- Each copy captures the effective stage that the portal had before any of them joined. -/
theorem pushCopies_eq_foldl : forEach l (pushCopy q seat number) s = l.foldl (fun u p =>
    claimsChanged p (q.kind == .inject) (setClaims p
      ((u.arbiter p).claims ++ [q.copy seat number s.tenths (s.arbiter p).effective]) u)) s := by
  refine (pushCopy_acts q seat number).eq_foldl hl fun p _ u ⟨_, _, _, harb, _⟩ hu => ?_
  rw [pushCopy, hu.tenths, harb]

end Push

/-- Settles O31: the accepted push is a repetition of `pushCopy` over the named portals. -/
theorem pushClaimJoinsEachNamedList : Obligations.PushClaimJoinsEachNamedList := by
  intro seat h b kind s hp hb hr hn hkind argument deadline staged hstaged hdeadline hinject hquota number
    copy above counter joined
  let q : ClaimRequest :=
    { kind := kind, kept := bitAt b 1 0, argument := argument
      deadline := if deadline = 0 then none else some deadline }
  have hq : claimRequest b = some q := by
    rw [claimRequest, claimKindOf_eq, hkind]
    rfl
  have hrefusal : q.refusal = none := by
    refine refusal_eq_none hstaged (fun d hd => ?_) fun hk => ?_
    · by_cases h0 : deadline = 0 <;> simp [q, h0] at hd
      omega
    · obtain ⟨harg, hkept, hpos, hle⟩ := hinject hk
      exact ⟨harg, hkept, deadline, if_neg (Nat.ne_of_gt hpos), hle⟩
  have hcopy (p : Fin 4) : q.copy seat number s.tenths (s.arbiter p).effective = copy p := by
    have hmoment : q.deadline.map (fun d => s.tenths + 10 * d) =
        if deadline = 0 then none else some (s.tenths + 10 * deadline) := by
      by_cases h0 : deadline = 0 <;> simp [q, h0]
    simp only [ClaimRequest.copy, hmoment, copy, q]
  have hexec := exec_pushClaim hp hb hr hn hq hrefusal hquota
  obtain ⟨counted, hcounted⟩ : ∃ u, u = ({ s with claimCounter := counter } : State) := ⟨_, rfl⟩
  obtain ⟨t, ht⟩ : ∃ t, t = forEach h.portals (pushCopy q seat number) counted := ⟨_, rfl⟩
  have hl := portals_nodup h
  have hchanged (u : State) (p : Fin 4) : claimsChanged p (q.kind == .inject)
      (setClaims p ((u.arbiter p).claims ++ [copy p]) u) = joined u p := by
    by_cases hk : kind = .inject
    · rw [show (q.kind == ClaimKind.inject) = true by simp [q, hk], claimsChanged_true]
      exact (if_pos hk).symm
    · rw [show (q.kind == ClaimKind.inject) = false by simp [q, hk], claimsChanged_false]
      exact (if_neg hk).symm
  have hfold := pushCopies_eq_foldl q seat number counted hl
  have hinjected (hk : kind = .inject) (p : Fin 4) (hp : p ∈ h.portals) :=
    pushCopies_injected (q := q) seat number counted hl hk hp
  have hsource (hk : kind ≠ .inject) := pushCopies_source (q := q) seat number counted (l := h.portals) hk
  have hclaims (p : Fin 4) (hp : p ∈ h.portals) := pushCopies_claims q seat number counted hl hp
  have hothers (p : Fin 4) (hp : p ∉ h.portals) := pushCopies_others q seat number counted hp
  have haround := pushCopies_around q seat number counted (l := h.portals)
  rw [← ht] at hfold hinjected hsource hclaims hothers haround
  rw [hcounted] at hfold hinjected hsource hclaims hothers haround
  obtain ⟨hclock, hsets, hmeters, htrips, hports, hcounter⟩ := haround
  refine ⟨t, ?_, hfold.trans ?_, hinjected, hsource, hcounter, fun p hp => ?_, fun p hp => ?_,
    hclock, hsets, hmeters, htrips, hports⟩
  · rw [ht, hcounted] at hports ⊢
    exact hexec.trans (congrArg done (acceptPush_eq seat h q s hports))
  · exact List.foldl_ext _ _ _ fun u p _ => by rw [← hchanged u p, ← hcopy p]; rfl
  · rw [← hcopy p]
    exact hclaims p hp
  · obtain ⟨-, heval, hsel, harb, hzones, -⟩ := hothers p hp
    exact ⟨harb, heval, hsel, hzones⟩

end Sys2Proof.Machine
end

section
namespace Sys2Proof.Machine

/-! ### A changed effective stage (O29) -/

/-- Two repetitions agree where their operations do, in every state that the first goes through. -/
theorem forEach_congr {α : Type} {P : State → Prop} {l : List α} {f g : α → State → State}
    (hk : ∀ a ∈ l, ∀ u, P u → P (f a u)) (hfg : ∀ a ∈ l, ∀ u, P u → f a u = g a u) (s : State)
    (hs : P s) : forEach l f s = forEach l g s := by
  induction l generalizing s with
  | nil => rfl
  | cons a rest ih =>
    rw [forEach, forEach, ← hfg a List.mem_cons_self s hs]
    exact ih (fun b hb => hk b (List.mem_cons_of_mem a hb))
      (fun b hb => hfg b (List.mem_cons_of_mem a hb)) _ (hk a List.mem_cons_self s hs)

/-- What a zone does with its target leaves the row that the levels are read from. -/
theorem zoneArrive_output (p : Fin 4) (z : Fin 5) (target : Nat) (s : State) :
    SameButOutput s (zoneArrive p z target s) :=
  zoneArrive_keeps (SameButOutput.trips p s).toKeptByLight z target s rfl

theorem SameButOutput.zoneLevel {s u : State} (h : SameButOutput s u) (p : Fin 4) (z : Fin 5) :
    u.zoneLevel p z = s.zoneLevel p z := by
  rw [State.zoneLevel, State.zoneLevel, State.set, State.arbiter, h.active, h.arbiters]

/-- Every zone is handed the level that it had in the row when the first was handed its own (R41). -/
theorem handTargets_eq (p : Fin 4) (s : State) :
    handTargets p s = forEach allZones (fun z u => zoneArrive p z (s.zoneLevel p z) u) s :=
  forEach_congr (P := SameButOutput s) (fun z _ u hu => hu.trans (zoneArrive_output p z _ u))
    (fun z _ u hu => by rw [hu.zoneLevel]) s rfl

/-- The post and the hand-over of a resolution that changes the effective stage (R74). -/
theorem resolve_changed {p : Fin 4} {s : State}
    (h : (s.arbiter p).resolved ≠ (s.arbiter p).effective) :
    resolve p s = handTargets p (postAll
      (.stageChanged p (s.arbiter p).effective (s.arbiter p).resolved (s.arbiter p).automatic)
      (s.setArbiter p { s.arbiter p with effective := (s.arbiter p).resolved })) := by
  have hstage : resolveStage p s = postAll
      (.stageChanged p (s.arbiter p).effective (s.arbiter p).resolved (s.arbiter p).automatic)
      (s.setArbiter p { s.arbiter p with effective := (s.arbiter p).resolved }) := if_neg h
  have hmoved : ((resolveStage p s).arbiter p).effective ≠ (s.arbiter p).effective := by
    rw [resolveStage_arbiter]
    exact h
  rw [← hstage]
  exact if_neg hmoved

/-- Settles O29: the row of the new effective stage is read once, since no zone writes it. -/
theorem resolutionPostsAndHandsOnAChange : Obligations.ResolutionPostsAndHandsOnAChange := by
  intro p s a told level
  refine ⟨resolve_unchanged, fun h => ?_⟩
  have hlevel (z : Fin 5) : told.zoneLevel p z = level z := by
    have harb : told.arbiter p = { a with effective := a.resolved } := rd_wr_self _ _ _
    rw [State.zoneLevel, harb]
    rfl
  rw [resolve_changed h]
  change handTargets p told = _
  simp only [handTargets_eq, hlevel, allZones, forEach]

end Sys2Proof.Machine
end

section
namespace Sys2Proof.Machine

/-! ### The stage after an offer, a selection and a dwell (O36) -/

/-- The upward test finds the highest stage above `low` that the demand reaches (R47). -/
theorem risen_of_highest {x : PortalSet} {low d i : Nat} (hi : i < x.stageCount) (hlow : low < i)
    (hr : ∃ r, (x.row i).rise = some r ∧ r ≤ d)
    (hlast : ∀ j, i < j → j < x.stageCount → ¬ ∃ r, (x.row j).rise = some r ∧ r ≤ d) :
    x.risen low d = some i := by
  refine find_range_reverse hi ?_ fun j hj hij => ?_
  · simpa [hlow, Option.any_eq_true] using hr
  · rw [Bool.and_eq_false_iff]
    refine Or.inr (Bool.eq_false_iff.mpr fun h => hlast j hij hj ?_)
    simpa [Option.any_eq_true] using h

/-- The upward test finds nothing where no higher stage is reached. -/
theorem risen_of_none {x : PortalSet} {low d : Nat}
    (h : ∀ i, i < x.stageCount → low < i → ¬ ∃ r, (x.row i).rise = some r ∧ r ≤ d) :
    x.risen low d = none := by
  refine List.find?_eq_none.mpr fun i hi hq => ?_
  rw [Bool.and_eq_true, decide_eq_true_eq] at hq
  refine h i (List.mem_range.mp (List.mem_reverse.mp hi)) hq.1 ?_
  simpa [Option.any_eq_true] using hq.2

/-- A demand in use lies below the fall threshold of the automatic stage, if that has one (R48). -/
theorem undercuts_iff {p : Fin 4} {s : State} : s.undercuts p = true ↔
    ∃ d ∈ (s.selector p).demandInUse, ∃ f ∈ ((s.set p).row (s.selector p).automatic).fall, d < f := by
  unfold State.undercuts
  split
  · next hd hf => simp [hd, hf]
  · next h =>
    refine iff_of_false Bool.false_ne_true ?_
    rintro ⟨d, hd, f, hf, -⟩
    exact h d f hd hf

theorem downward_falls {p : Fin 4} {s : State} (hpos : 0 < (s.selector p).automatic)
    (hu : s.undercuts p = true) (hd : (s.selector p).dwell = none) :
    downward p s = moveTo p ((s.selector p).automatic - 1) s := if_pos ⟨hpos, hu, hd⟩

theorem downward_stays {p : Fin 4} {s : State}
    (h : ¬ (0 < (s.selector p).automatic ∧ s.undercuts p = true ∧ (s.selector p).dwell = none)) :
    downward p s = s := if_neg h

theorem follow_selector (p : Fin 4) (following : Bool) (demand : Option Nat) (s : State) :
    (follow p following demand s).selector p =
      { s.selector p with following := following, demandInUse := demand } := rd_wr_self _ _ _

section Offer

variable {p : Fin 4} {d : Nat} {s : State}

theorem offer_of_risen {i : Nat} (h : (s.set p).risen (s.selector p).automatic d = some i) :
    offer p d s = moveTo p i (follow p true (some d) s) := by
  unfold offer
  rw [h]

theorem offer_of_not_risen (h : (s.set p).risen (s.selector p).automatic d = none) :
    offer p d s = downward p (follow p true (some d) s) := by
  unfold offer
  rw [h]

/-- The Stage Selector after a move with a new demand in use (R46, R49, R52). -/
theorem moveTo_follow_selector (i : Nat) :
    (moveTo p i (follow p true (some d) s)).selector p =
      { following := true, automatic := i, dwell := some (s.now + ((s.set p).row i).dwell * 1000)
        enteredAt := s.tenths, demandInUse := some d } := by
  rw [moveTo_selector, follow_selector]
  rfl

/-- The downward test of an offer is made with the offered demand (R46, R48). -/
theorem follow_undercuts_iff : (follow p true (some d) s).undercuts p = true ↔
    ∃ f, ((s.set p).row (s.selector p).automatic).fall = some f ∧ d < f := by
  have hset : (follow p true (some d) s).set p = s.set p := rfl
  rw [undercuts_iff, follow_selector, hset]
  simp

end Offer

/-- What the expiry of a dwell timer has run (R49). -/
def State.dwellRun (s : State) (p : Fin 4) : State :=
  s.setSelector p { s.selector p with dwell := none }

section Dwell

variable {p : Fin 4} {s : State}

theorem dwellRun_selector : (s.dwellRun p).selector p = { s.selector p with dwell := none } :=
  rd_wr_self _ _ _

theorem dwellRun_undercuts : (s.dwellRun p).undercuts p = s.undercuts p := by
  rw [State.undercuts, State.undercuts, dwellRun_selector]
  rfl

variable {e : Nat} (he : (s.selector p).dwell = some e) (hle : e ≤ s.now)
include he hle

theorem exec_dwellExpiry : exec (.dwellExpiry p) s =
    if (s.selector p).following then done (downward p (s.dwellRun p)) else .next (s.dwellRun p) :=
  if_pos (by rw [he]; exact due_of_le hle)

theorem exec_dwellExpiry_atTop (hf : (s.selector p).following = false) :
    exec (.dwellExpiry p) s = .next (s.dwellRun p) := by
  rw [exec_dwellExpiry he hle, hf]
  rfl

theorem exec_dwellExpiry_stays (hf : (s.selector p).following = true)
    (hn : ¬ (0 < (s.selector p).automatic ∧ s.undercuts p = true)) :
    exec (.dwellExpiry p) s = done (s.dwellRun p) := by
  have hstay : downward p (s.dwellRun p) = s.dwellRun p := by
    refine downward_stays ?_
    rw [dwellRun_selector, dwellRun_undercuts]
    exact fun ⟨hpos, hu, _⟩ => hn ⟨hpos, hu⟩
  rw [exec_dwellExpiry he hle, hf, hstay]
  rfl

theorem exec_dwellExpiry_falls (hf : (s.selector p).following = true)
    (hpos : 0 < (s.selector p).automatic) (hu : s.undercuts p = true) :
    exec (.dwellExpiry p) s = done (moveTo p ((s.selector p).automatic - 1) (s.dwellRun p)) := by
  have hfall := downward_falls (p := p) (s := s.dwellRun p) (by rw [dwellRun_selector]; exact hpos)
    (dwellRun_undercuts.trans hu) (by rw [dwellRun_selector])
  rw [dwellRun_selector] at hfall
  rw [exec_dwellExpiry he hle, hf, hfall]
  rfl

end Dwell

/-- A move of the stage acts at its portal alone, and on its daylight path and its lighting only. -/
theorem moveTo_acts (stage : Nat) : ActsAt (fun p => moveTo p stage) := fun p s =>
  ⟨moveTo_keeps (Local.source p s).toKeptByStage stage s (Local.refl p s),
    moveTo_keeps (SameAround.source p s).toKeptByStage stage s (SameAround.refl s)⟩

theorem moveTo_source (p : Fin 4) (stage : Nat) (s : State) : SameSource s (moveTo p stage s) :=
  resolve_source p (setStage p stage s)

/-- The end of an event leaves the blocks of every portal. -/
theorem SamePortal.begun {p : Fin 4} {s u : State} (h : SamePortal p s u) :
    SamePortal p s (beginTransactions u) := by
  simpa [SamePortal, State.baseOf, State.eval, State.selector, State.arbiter, State.tripUnit, State.set,
    State.edit] using h

/-- Settles O36: each case is a move of the stage, or a write of the Stage Selector alone. -/
theorem stageMovesByOfferSelectionTopAndDwell :
    Obligations.StageMovesByOfferSelectionTopAndDwell := by
  refine ⟨fun x i => ⟨dif_pos i.isLt, rfl⟩, ⟨fun p d s => ?_, fun p d s => ?_⟩, fun p e s he hle => ?_⟩
  · intro x l reached entered below
    refine ⟨fun i hi hlow hr hlast => ?_, fun hnone => ⟨fun hpos hbelow hdwell => ?_, fun hstay => ?_⟩⟩
    · rw [offer_of_risen (risen_of_highest hi hlow hr hlast)]
      exact moveTo_follow_selector i
    · rw [offer_of_not_risen (risen_of_none hnone), downward_falls, follow_selector]
      · exact moveTo_follow_selector _
      · rw [follow_selector]
        exact hpos
      · exact follow_undercuts_iff.mpr hbelow
      · rw [follow_selector]
        exact hdwell
    · rw [offer_of_not_risen (risen_of_none hnone), downward_stays]
      · rfl
      · rw [follow_selector, follow_undercuts_iff]
        rintro ⟨hpos, hbelow, hdwell⟩
        rcases hstay with h | h | h
        · exact hpos.ne' h
        · exact h hbelow
        · exact h hdwell
  · intro x reached entered
    refine ⟨fun i hpos hi hr hlast => ?_, fun hnone => ?_, enterTop_selector p s, ?_, ?_⟩
    · rw [selectInitial, initialStage_of_highest hi hpos hr fun j hj hij => hlast j hij hj]
      exact moveTo_follow_selector i
    · rw [selectInitial, initialStage_of_none fun i hi hpos => hnone i hpos hi]
      exact moveTo_follow_selector 0
    · rw [enterTop, moveTo_arbiter]
      rfl
    · rw [enterTop, moveTo_arbiter]
      rfl
  · intro l run falls low
    refine ⟨fun _ hf => exec_dwellExpiry_atTop he hle hf, fun hn hf => ?_, fun ⟨hf, hpos, hu⟩ => ?_⟩
    · exact exec_dwellExpiry_stays he hle hf fun ⟨hpos, hu⟩ => hn ⟨hf, hpos, hu⟩
    obtain ⟨hlocal, haround⟩ := moveTo_acts low p (s.dwellRun p)
    obtain ⟨hclock, hsets, hmeters, htrips, hports, hcounter⟩ :=
      SameAround.begun (s := s) (haround : SameAround (s.dwellRun p) _)
    obtain ⟨hevals, hbase⟩ := moveTo_source p low (s.dwellRun p)
    have harb : (beginTransactions (moveTo p low (s.dwellRun p))).arbiter p =
        (moveTo p low (s.dwellRun p)).arbiter p := congrArg (rd · p) (beginTransactions_arbiters _)
    refine ⟨_, exec_dwellExpiry_falls he hle hf hpos hu, ?_, ?_, ?_, ?_, fun q hq => ?_, hclock, hsets,
      hmeters, ⟨?_, ?_⟩, htrips, hports, hcounter⟩
    · rw [beginTransactions_selector, moveTo_selector, dwellRun_selector]
      rfl
    · rw [harb, moveTo_arbiter]
    · rw [harb]
      exact resolve_settled p _
    · rw [harb, moveTo_arbiter]
      rfl
    · have hrun : SamePortal q s (s.dwellRun p) := ((Local.refl p s).setSelector _).others q hq |>.1
      exact SamePortal.begun (hrun.trans (hlocal.others q hq).1)
    · exact (beginTransactions_evals _).trans hevals
    · exact (beginTransactions_base _).trans hbase

end Sys2Proof.Machine
end

section
namespace Sys2Proof.Machine

/-! ### COMMIT (O22): the pending sets -/

/-- What a COMMIT makes of what the Set Store holds for a portal (R164). -/
def Edit.committed (e : Edit) (seat : Seat) (time : Nat) : Edit :=
  match e.shadow with
  | .none => e
  | .some x =>
    { e with
      shadow := some { x with locked := true }
      pendingSet := some { set := x.set.copied, seat := seat, time := time } }

/-- The pending sets of the portals named have been made. -/
def State.committed (s : State) (seat : Seat) (l : List (Fin 4)) : State :=
  { s with edits := tab fun p => if p ∈ l then (s.edit p).committed seat s.tenths else s.edit p }

theorem copied_copied (x : PortalSet) : x.copied.copied = x.copied := by
  have hrows : x.copied.copied.rows = x.copied.rows := by
    refine bank_ext fun i => ?_
    by_cases hi : i.val < x.stageCount <;> simp [PortalSet.copied, hi]
  exact congrArg (fun rows => { x with rows := rows }) hrows

theorem makePending_eq (seat : Seat) (p : Fin 4) (s : State) :
    makePending seat p s = s.setEdit p ((s.edit p).committed seat s.tenths) := by
  have hself : s.setEdit p (s.edit p) = s := by rw [State.setEdit, State.edit, wr_rd_self]
  unfold makePending Edit.committed
  dsimp only
  cases hx : (s.edit p).shadow with
  | none => exact hself.symm
  | some x => rfl

theorem committed_edit (s : State) (seat : Seat) (l : List (Fin 4)) (p : Fin 4) :
    (s.committed seat l).edit p =
      if p ∈ l then (s.edit p).committed seat s.tenths else s.edit p := rd_tab _ _

/-- Each portal named has its pending set made once. -/
theorem forEach_makePending (seat : Seat) {l : List (Fin 4)} (hn : l.Nodup) (s : State) :
    forEach l (makePending seat) s = s.committed seat l := by
  induction l generalizing s with
  | nil =>
    have hedits : (tab fun p => s.edit p) = s.edits := bank_ext fun p => rd_tab _ p
    rw [State.committed, forEach]
    simp [hedits]
  | cons a rest ih =>
    obtain ⟨ha, hrest⟩ := List.nodup_cons.mp hn
    rw [forEach, ih hrest, makePending_eq]
    refine congrArg (fun edits => { s with edits := edits }) (bank_ext fun p => ?_)
    rw [rd_tab, rd_tab]
    by_cases hp : p = a
    · subst hp
      simp [ha, State.edit, State.tenths]
    · have hkept : (s.setEdit a ((s.edit a).committed seat s.tenths)).edit p = s.edit p :=
        rd_wr_of_ne _ _ (Ne.symm hp)
      simp only [hkept, List.mem_cons, hp, false_or]
      rfl

/-- What the Set Store holds for a portal that a seat's COMMIT can take (R163): the grant is the seat's,
the shadow EDITABLE, and no set pending. -/
structure Edit.CommittedBy (e : Edit) (seat : Seat) (set : PortalSet) : Prop where
  holder : e.holder = some seat
  clear : e.pendingSet = .none
  editable : e.shadow = some { set := set, locked := false }

theorem Edit.CommittedBy.committed {e : Edit} {seat : Seat} {set : PortalSet} (h : e.CommittedBy seat set)
    (time : Nat) : e.committed seat time =
      { holder := some seat, shadow := some { set := set, locked := true }
        pendingSet := some { set := set.copied, seat := seat, time := time } } := by
  unfold Edit.committed
  rw [h.editable, ← h.holder]

/-! ### COMMIT (O22): portals that adopt one after the other -/

theorem forEach_eq_foldl {α : Type} (l : List α) (f : α → State → State) (s : State) :
    forEach l f s = l.foldl (fun u a => f a u) s := by
  induction l generalizing s with
  | nil => rfl
  | cons a rest ih => exact ih (f a s)

/-- The adoption point is read from the portal's own blocks. -/
theorem SamePortal.adoptionPoint {p : Fin 4} {s u : State} (h : SamePortal p s u) :
    u.adoptionPoint p = s.adoptionPoint p := by
  obtain ⟨hbase, -, -, -, hzones, -⟩ := h
  simp only [State.adoptionPoint, hbase, State.zone, hzones]

section Ready

variable {p : Fin 4} {s : State}

theorem adoptIfReady_adopts {x : PendingSet} (hx : (s.edit p).pendingSet = some x)
    (hpoint : s.adoptionPoint p = true) : adoptIfReady p s = adopt p x s := by
  unfold adoptIfReady
  rw [hx]
  exact if_pos hpoint

theorem adoptIfReady_waits (hpoint : s.adoptionPoint p = false) : adoptIfReady p s = s := by
  unfold adoptIfReady
  split
  · rfl
  · exact if_neg (by rw [hpoint]; exact Bool.false_ne_true)

/-- An adoption leaves the blocks of the other portals (R165). -/
theorem adopt_others {q : Fin 4} (hq : q ≠ p) (x : PendingSet) (s : State) :
    SamePortal q s (adopt p x s) := by
  obtain ⟨hset, hedit, hbase, harb, hsel, heval, htrip, hzones⟩ := adopted_others x s hq
  simp only [State.set, State.edit, State.baseOf, State.arbiter, State.selector, State.eval,
    State.tripUnit, beginTransactions_active, beginTransactions_edits, beginTransactions_base,
    beginTransactions_arbiters, beginTransactions_selectors, beginTransactions_evals,
    beginTransactions_trips, beginTransactions_zones] at hset hedit hbase harb hsel heval htrip hzones
  exact ⟨hbase, heval, hsel, harb, hzones, htrip, hset, hedit⟩

theorem adoptIfReady_others {q : Fin 4} (hq : q ≠ p) (s : State) : SamePortal q s (adoptIfReady p s) := by
  unfold adoptIfReady
  split
  · exact SamePortal.refl q s
  · split
    · exact adopt_others hq _ s
    · exact SamePortal.refl q s

theorem adoptIfReady_ports (p : Fin 4) (s : State) : (adoptIfReady p s).ports = s.ports := by
  have adopts (x : PendingSet) : (adopt p x s).ports = s.ports := by
    obtain ⟨hfixed, -⟩ := adoptTripped_adoptsAt p x s
    simp only [State.fixed, Prod.mk.injEq] at hfixed
    obtain ⟨-, -, -, -, -, hports, -⟩ := hfixed
    exact (adopt_report p x s).ports.trans hports
  unfold adoptIfReady
  split
  · rfl
  · split
    · exact adopts _
    · rfl

theorem adopt_set (p : Fin 4) (x : PendingSet) (s : State) : (adopt p x s).set p = x.set := by
  rw [State.set, (adopt_report p x s).active]
  exact adopted_set p x s

end Ready

section Repeated

variable {l : List (Fin 4)} {p : Fin 4}

theorem adoptions_ports (l : List (Fin 4)) (s : State) : (forEach l adoptIfReady s).ports = s.ports :=
  forEach_keeps (P := fun u => u.ports = s.ports)
    (fun q _ u hu => (adoptIfReady_ports q u).trans hu) s rfl

theorem adoptions_others (hp : p ∉ l) (s : State) : SamePortal p s (forEach l adoptIfReady s) :=
  forEach_keeps (P := SamePortal p s)
    (fun _ hq _ hu => hu.trans (adoptIfReady_others (ne_of_mem_of_not_mem hq hp).symm _)) s
    (SamePortal.refl p s)

/-- A portal named adopts once, from what it was, and stays as that leaves it. -/
theorem adoptions_at (hn : l.Nodup) (hp : p ∈ l) (s : State) :
    ∃ u, SamePortal p s u ∧ SamePortal p (adoptIfReady p u) (forEach l adoptIfReady s) :=
  forEach_once (P := fun t => ∃ u, SamePortal p s u ∧ SamePortal p (adoptIfReady p u) t)
    (Q := SamePortal p s) hn hp (fun u hu => ⟨u, hu, SamePortal.refl p _⟩)
    (fun _ _ hq u hu => hu.trans (adoptIfReady_others hq.symm u))
    (fun _ _ hq t ⟨u, hu, ht⟩ => ⟨u, hu, ht.trans (adoptIfReady_others hq.symm t)⟩)
    s (SamePortal.refl p s)

/-- A portal away from its adoption point waits. -/
theorem adoptions_wait (hn : l.Nodup) (hp : p ∈ l) {s : State} (hpoint : s.adoptionPoint p = false) :
    SamePortal p s (forEach l adoptIfReady s) := by
  obtain ⟨u, hu, ht⟩ := adoptions_at hn hp s
  rw [adoptIfReady_waits (hu.adoptionPoint.trans hpoint)] at ht
  exact hu.trans ht

/-- A portal with a pending set and at its adoption point adopts it (R165). -/
theorem adoptions_adopt (hn : l.Nodup) (hp : p ∈ l) {s : State} {x : PendingSet}
    (hx : (s.edit p).pendingSet = some x) (hpoint : s.adoptionPoint p = true) :
    (forEach l adoptIfReady s).set p = x.set ∧
      (forEach l adoptIfReady s).edit p =
        { holder := (s.edit p).holder, pendingSet := none
          shadow := (s.edit p).shadow.map fun y =>
            if y.locked then { set := x.set.copied, locked := false } else y } := by
  obtain ⟨u, hu, -, -, -, -, -, -, hset, hedit⟩ := adoptions_at hn hp s
  have hpointu := hu.adoptionPoint.trans hpoint
  obtain ⟨-, -, -, -, -, -, -, heditu⟩ := hu
  rw [adoptIfReady_adopts (heditu ▸ hx) hpointu] at hset hedit
  rw [adopt_set] at hset
  rw [adopt_edit, heditu] at hedit
  exact ⟨hset, hedit⟩

end Repeated

/-! ### COMMIT (O22): the command -/

section Commit

variable {seat : Seat} {l : List (Fin 4)} {s : State}

/-- A COMMIT changes no portal's adoption point before it adopts. -/
theorem committed_adoptionPoint (s : State) (seat : Seat) (l : List (Fin 4)) (p : Fin 4) :
    (s.committed seat l).adoptionPoint p = s.adoptionPoint p := rfl

theorem committed_others {p : Fin 4} (hp : p ∉ l) : SamePortal p s (s.committed seat l) :=
  ⟨rfl, rfl, rfl, rfl, rfl, rfl, rfl, (committed_edit s seat l p).trans (if_neg hp)⟩

variable (hn : l.Nodup)
include hn

theorem commit_adopts {p : Fin 4} (hp : p ∈ l) {set : PortalSet}
    (hs : (s.edit p).CommittedBy seat set) (hpoint : s.adoptionPoint p = true) :
    let t := forEach l adoptIfReady (s.committed seat l)
    t.set p = set.copied ∧
      t.edit p = { holder := some seat, pendingSet := none
                   shadow := some { set := set.copied, locked := false } } := by
  have hedit : (s.committed seat l).edit p =
      { holder := some seat, shadow := some { set := set, locked := true }
        pendingSet := some { set := set.copied, seat := seat, time := s.tenths } } := by
    rw [committed_edit, if_pos hp, hs.committed]
  obtain ⟨hset, heditt⟩ := adoptions_adopt hn hp (s := s.committed seat l)
    (x := { set := set.copied, seat := seat, time := s.tenths }) (by rw [hedit]) hpoint
  rw [hedit] at heditt
  refine ⟨hset, heditt.trans ?_⟩
  simp [copied_copied]

theorem commit_waits {p : Fin 4} (hp : p ∈ l) (hpoint : s.adoptionPoint p = false) :
    SamePortal p (s.committed seat l) (forEach l adoptIfReady (s.committed seat l)) :=
  adoptions_wait hn hp hpoint

/-- A portal named still has its pending set exactly where it was away from its adoption point. -/
theorem commit_hasPending {p : Fin 4} (hp : p ∈ l) {set : PortalSet}
    (hs : (s.edit p).CommittedBy seat set) :
    (forEach l adoptIfReady (s.committed seat l)).hasPending p = !s.adoptionPoint p := by
  rw [State.hasPending]
  cases hpoint : s.adoptionPoint p with
  | true => rw [(commit_adopts hn hp hs hpoint).2]; rfl
  | false =>
    obtain ⟨-, -, -, -, -, -, -, hedit⟩ := commit_waits (seat := seat) hn hp hpoint
    rw [hedit, committed_edit, if_pos hp, hs.committed]
    rfl

end Commit

/-- An accepted COMMIT makes its pending sets, and those of portals at their adoption point are adopted;
the mask names these, and P tells of the others (R164). -/
theorem exec_commit {seat : Seat} {h : Header} {s : State} (hp : (s.port seat).phase = .header)
    (hne : h.portals ≠ []) (hv : s.validation h.portals = none)
    (hs : ∀ p ∈ h.portals, ∃ set, (s.edit p).CommittedBy seat set) :
    exec (.commit seat h) s = done (answer seat .ok (maskOf (h.portals.filter s.adoptionPoint)) true true
      (s.raisedFlag seat) (h.portals.any fun p => !s.adoptionPoint p)
      (forEach h.portals adoptIfReady (s.committed seat h.portals))) := by
  have hn := portals_nodup h
  have hgrant : h.portals.find? (fun p => !s.holdsGrant seat p) = none := by
    refine List.find?_eq_none.mpr fun p hp => ?_
    obtain ⟨set, hset⟩ := hs p hp
    simp [State.holdsGrant, hset.holder]
  have hlocked : h.portals.find? s.shadowLocked = none := by
    refine List.find?_eq_none.mpr fun p hp => ?_
    obtain ⟨set, hset⟩ := hs p hp
    simp [State.shadowLocked, hset.editable]
  have hclear : h.portals.find? s.hasPending = none := by
    refine List.find?_eq_none.mpr fun p hp => ?_
    obtain ⟨set, hset⟩ := hs p hp
    simp [State.hasPending, hset.clear]
  obtain ⟨t, ht⟩ : ∃ t, t = forEach h.portals adoptIfReady (s.committed seat h.portals) := ⟨_, rfl⟩
  have hpending (p : Fin 4) (hp : p ∈ h.portals) : t.hasPending p = !s.adoptionPoint p := by
    obtain ⟨set, hset⟩ := hs p hp
    rw [ht]
    exact commit_hasPending hn hp hset
  have hflag : t.raisedFlag seat = s.raisedFlag seat := by
    rw [State.raisedFlag, State.port, ht, adoptions_ports]
    rfl
  have hmask : (h.portals.filter fun p => !t.hasPending p) = h.portals.filter s.adoptionPoint :=
    List.filter_congr fun p hp => by rw [hpending p hp, Bool.not_not]
  have hdeferred : h.portals.any t.hasPending = h.portals.any fun p => !s.adoptionPoint p := by
    rw [Bool.eq_iff_iff, List.any_eq_true, List.any_eq_true]
    exact exists_congr fun p => and_congr_right fun hp => by rw [hpending p hp]
  have hcommand : commitCommand seat h s =
      accept seat (maskOf (h.portals.filter fun p => !t.hasPending p)) true false
        (h.portals.any t.hasPending) t := by
    rw [ht, ← forEach_makePending seat hn]
    simp only [commitCommand, if_neg hne, hgrant, hlocked, hclear, hv]
  rw [hmask, hdeferred, accept_eq_answer, hflag, Bool.or_false] at hcommand
  rw [← ht, ← hcommand]
  exact congrArg done (inHeader_run hp _)

theorem maskOf_singleton (p : Fin 4) : maskOf [p] = 2 ^ p.val := by
  revert p
  decide

/-- Settles O22: the three cases are `exec_commit`, read by the portals that are at their adoption
point. -/
theorem commitMakesPendingSets : Obligations.CommitMakesPendingSets := by
  intro seat h s hp hne hv
  have hn := portals_nodup h
  refine ⟨fun p set hone hholder hclear hshadow hpoint => ?_, fun hall => ?_, fun hall => ?_⟩
  · intro made
    have hset : (s.edit p).CommittedBy seat set := ⟨hholder, hclear, hshadow⟩
    have hexec := exec_commit hp hne hv fun q hq => by
      rw [hone, List.mem_singleton] at hq
      exact ⟨set, hq ▸ hset⟩
    have hmade : s.committed seat [p] = made := by
      rw [← forEach_makePending seat (List.nodup_singleton p), forEach, forEach, makePending_eq,
        hset.committed]
    rw [hone, hmade] at hexec
    simp only [List.filter_cons, hpoint, List.any_cons, if_true, List.filter_nil, List.any_nil,
      Bool.not_true, Bool.or_false, maskOf_singleton] at hexec
    exact ⟨_, rfl, hexec⟩
  · have hset (p : Fin 4) (hp : p ∈ h.portals) : ∃ set, (s.edit p).CommittedBy seat set := by
      obtain ⟨hholder, hclear, -, set, hshadow⟩ := hall p hp
      exact ⟨set, ⟨hholder, hclear, hshadow⟩⟩
    have hpoint (p : Fin 4) (hp : p ∈ h.portals) : s.adoptionPoint p = false := by
      obtain ⟨-, -, hpoint, -⟩ := hall p hp
      exact hpoint
    have hexec := exec_commit hp hne hv hset
    have hstay : forEach h.portals adoptIfReady (s.committed seat h.portals) =
        s.committed seat h.portals :=
      forEach_keeps (P := fun u => u = s.committed seat h.portals)
        (fun p hp u hu => by
          rw [hu]
          exact adoptIfReady_waits (hpoint p hp)) _ rfl
    have hmask : h.portals.filter s.adoptionPoint = [] :=
      List.filter_eq_nil_iff.mpr fun p hp => by simp [hpoint p hp]
    have hdeferred : (h.portals.any fun p => !s.adoptionPoint p) = true := by
      obtain ⟨p, hp⟩ := List.exists_mem_of_ne_nil _ hne
      exact List.any_eq_true.mpr ⟨p, hp, by rw [hpoint p hp]; rfl⟩
    rw [hstay, hmask, hdeferred] at hexec
    refine ⟨_, hexec, fun p hp set hshadow => ?_, fun p hp => ?_, rfl⟩
    · obtain ⟨hholder, hclear, -⟩ := hall p hp
      rw [committed_edit, if_pos hp]
      exact Edit.CommittedBy.committed ⟨hholder, hclear, hshadow⟩ _
    · rw [committed_edit, if_neg hp]
  · intro made t
    have hset (p : Fin 4) (hp : p ∈ h.portals) (set : PortalSet)
        (hshadow : (s.edit p).shadow = some { set := set, locked := false }) :
        (s.edit p).CommittedBy seat set := by
      obtain ⟨hholder, hclear, -⟩ := hall p hp
      exact ⟨hholder, hclear, hshadow⟩
    have hexec := exec_commit hp hne hv fun p hp => by
      obtain ⟨-, -, set, hshadow⟩ := hall p hp
      exact ⟨set, hset p hp set hshadow⟩
    have hmade : s.committed seat h.portals = made := by
      refine congrArg (fun edits => { s with edits := edits }) (bank_ext fun p => ?_)
      rw [rd_tab, rd_tab]
      by_cases hp : p ∈ h.portals
      · obtain ⟨-, -, set, hshadow⟩ := hall p hp
        rw [if_pos hp, (hset p hp set hshadow).committed, hshadow]
        exact (if_pos hp).symm
      · rw [if_neg hp]
        cases (s.edit p).shadow with
        | none => rfl
        | some x => exact (if_neg hp).symm
    have ht : forEach h.portals adoptIfReady (s.committed seat h.portals) = t := by
      rw [hmade, forEach_eq_foldl]
    refine ⟨fun p u => rfl, ht ▸ hexec, fun p hp set hshadow => ⟨fun hpoint => ?_, fun hpoint => ?_⟩,
      fun p hp => ?_⟩
    · exact ht ▸ commit_adopts hn hp (hset p hp set hshadow) hpoint
    · exact hmade ▸ ht ▸ commit_waits hn hp hpoint
    · exact ht ▸ (committed_others hp).trans (adoptions_others hp _)

end Sys2Proof.Machine
end

section
namespace Sys2Proof.Machine

/-! ### The quota after every step (O35) -/

/-- A list that loses claims holds no more of a seat's. -/
theorem countOf_filter_le (a : Arbiter) (keep : Claim → Bool) (seat : Seat) :
    Arbiter.countOf { a with claims := a.claims.filter keep } seat ≤ a.countOf seat :=
  List.Sublist.length_le (List.filter_sublist.filter _)

/-- A claim that joins a list counts for its own seat alone. -/
theorem countOf_push {a b : Arbiter} {c : Claim} (h : b.claims = a.claims ++ [c]) (seat : Seat) :
    b.countOf seat = a.countOf seat + if c.seat = seat then 1 else 0 := by
  by_cases hc : c.seat = seat <;> simp [Arbiter.countOf, h, List.filter_append, hc]

/-- A FREEZE copy whose captured stage is rewritten stays its seat's (R82). -/
theorem countOf_rewrite (a : Arbiter) (top : Nat) (seat : Seat) :
    Arbiter.countOf { a with claims := a.claims.map fun c => c.rewrite top } seat = a.countOf seat := by
  have hseat (c : Claim) : (c.rewrite top).seat = c.seat := by
    unfold Claim.rewrite
    split <;> rfl
  simp only [Arbiter.countOf, List.filter_map, List.length_map]
  congr 1
  exact List.filter_congr fun c _ => by rw [Function.comp_apply, hseat]

namespace ClaimsWf

variable {s : State} (h : ClaimsWf s)
include h

theorem setArbiter (p : Fin 4) {x : Arbiter} (hx : ∀ seat, x.countOf seat ≤ 4) :
    ClaimsWf (s.setArbiter p x) := by
  intro q seat
  rw [State.arbiter, State.setArbiter_arbiters, rd_wr]
  split
  · exact hx seat
  · exact h q seat

/-- A write of the arbiter that leaves its claims. -/
theorem setArbiter_same (p : Fin 4) {x : Arbiter} (hx : x.claims = (s.arbiter p).claims) :
    ClaimsWf (s.setArbiter p x) :=
  h.setArbiter p fun seat => by
    rw [Arbiter.countOf, hx]
    exact h p seat

/-- Only a list that holds fewer than 4 claims of the seat takes a copy (R70). -/
theorem acceptPush (seat : Seat) (hd : Header) (q : ClaimRequest)
    (hq : ∀ p ∈ hd.portals, (s.arbiter p).countOf seat < 4) : ClaimsWf (acceptPush seat hd q s) := by
  intro p x
  let number := s.allocate s.claimCounter 49
  let counted : State := { s with claimCounter := nextNumber number }
  let t := forEach hd.portals (pushCopy q seat number) counted
  change (t.arbiter p).countOf x ≤ 4
  by_cases hp : p ∈ hd.portals
  · obtain ⟨hclaims, -⟩ := pushCopies_claims q seat number counted (portals_nodup hd) hp
    have hcount : (t.arbiter p).countOf x = (s.arbiter p).countOf x + if seat = x then 1 else 0 :=
      countOf_push hclaims x
    rw [hcount]
    split
    · next hx => exact hx ▸ hq p hp
    · exact h p x
  · obtain ⟨-, -, -, harb, -⟩ := pushCopies_others q seat number counted hp
    rw [harb]
    exact h p x

end ClaimsWf

/-- What the stage, the source and the lighting of a portal write leaves every list. -/
theorem ClaimsWf.light (p : Fin 4) : KeptByLight p (atPortal p) ClaimsWf where
  place := fun _ hk => hk
  scope := fun _ _ _ hk => circuit_portal hk
  zone := fun _ _ _ h => h
  channel := fun _ _ _ _ h => h
  enter := fun _ _ _ _ h => h

/-- After a reset every list is empty (R85). -/
theorem claimsWf_of_reset {s : State} {sets : Vector PortalSet 4}
    (h : s.arbiters = tab fun p => (rd sets p).arbiterAfter) : ClaimsWf s := fun p seat => by
  rw [State.arbiter, h, rd_tab]
  exact Nat.zero_le 4

theorem powerUp_claimsWf (cause : ResetCause) (s : State) : ClaimsWf (powerUp cause s) := by
  have posted (u : State) (b : Bool) (hu : ClaimsWf u) :
      ClaimsWf (if b then postAll .storeInvalid u else u) := by
    cases b <;> exact hu
  exact posted _ _ (claimsWf_of_reset rfl)

theorem restartPart_claimsWf (s : State) : ClaimsWf (restartPart s) := by
  refine forEach_keeps (fun p _ u hu => restartPortal_keeps (ClaimsWf.light p) u hu) _ ?_
  exact claimsWf_of_reset rfl

/-- The single writes: claim lists lose claims, take the copies of a push, or start empty. -/
theorem ClaimsWf.commands : KeptByCommands ClaimsWf where
  post := fun _ _ _ _ h => h
  port := fun _ _ _ h => h
  mask := fun _ _ _ h => h
  pop := fun _ _ h => h
  meter := fun _ _ _ _ h => h
  eval := fun _ _ _ h => h
  base := fun _ _ _ h => h
  selector := fun _ _ _ h => h
  arbiter := fun p _ _ hx h => h.setArbiter_same p hx
  remove := fun p keep s h =>
    h.setArbiter p fun seat => (countOf_filter_le (s.arbiter p) keep seat).trans (h p seat)
  push := fun seat hd q _ hq h => h.acceptPush seat hd q hq
  zone := fun _ _ _ _ h => h
  channel := fun _ _ _ h => h
  tx := fun _ _ _ h => h
  departed := fun _ _ _ h => h
  station := fun _ _ _ _ _ h => h
  enter := fun _ _ _ _ _ h => h
  begin := fun _ _ h => h
  grant := fun _ _ _ h => h
  ungrant := fun _ _ h => h
  shadow := fun _ _ _ _ _ h => h
  pending := fun seat p s h => by
    rw [makePending_eq]
    exact h
  discard := fun _ _ h => h
  store := fun _ _ _ h => h
  free := fun _ _ h => h
  clock := fun _ _ _ h => h
  powerUp := fun cause s _ => powerUp_claimsWf cause s
  restart := fun s _ => restartPart_claimsWf s
  freezes := fun p s h => h.setArbiter p fun seat => by
    rw [countOf_rewrite]
    exact h p seat
  trip := fun _ _ _ h => h
  pins := fun _ _ h => h
  down := fun _ _ _ h => h
  leave := fun _ _ _ _ _ h => h
  join := fun _ _ _ _ _ h => h
  refresh := fun p s h => by
    unfold refreshShadow
    dsimp only
    split <;> exact h
  activate := fun _ _ _ _ h => h

/-- Settles O35: every single write keeps the quota, and the push checks it before it adds a claim. -/
theorem everyStepKeepsTheQuota : Obligations.EveryStepKeepsTheQuota := fun s t hs ht =>
  step_keeps ClaimsWf.commands.parts (fun _ _ h => h) s hs t ht

end Sys2Proof.Machine
end

section
namespace Sys2Proof.Machine

/-! ### The effective stage of a resolution (O28) -/

theorem max?_getD_mem {l : List Nat} (h : l ≠ []) (k : Nat) : l.max?.getD k ∈ l := by
  cases hm : l.max? with
  | none => exact absurd (List.max?_eq_none_iff.mp hm) h
  | some x => exact List.max?_mem hm

theorem min?_getD_mem {l : List Nat} (h : l ≠ []) (k : Nat) : l.min?.getD k ∈ l := by
  cases hm : l.min? with
  | none => exact absurd (List.min?_eq_none_iff.mp hm) h
  | some x => exact List.min?_mem hm

section Resolution

variable {a : Arbiter} {kind : ClaimKind}

theorem mem_arguments {x : Nat} : x ∈ a.arguments kind ↔
    ∃ c ∈ a.claims, c.kind = kind ∧ min (c.argument.getD 0) a.top = x := by
  simp [Arbiter.arguments, Arbiter.clamp, and_assoc]

theorem argument_mem {c : Claim} (hc : c ∈ a.claims) (hk : c.kind = kind) {n : Nat}
    (hn : c.argument = some n) : min n a.top ∈ a.arguments kind :=
  mem_arguments.mpr ⟨c, hc, hk, by rw [hn]; rfl⟩

theorem arguments_eq_nil : a.arguments kind = [] ↔ ∀ c ∈ a.claims, c.kind ≠ kind := by
  simp [Arbiter.arguments, List.filter_eq_nil_iff]

theorem arguments_ne_nil (h : ∃ c ∈ a.claims, c.kind = kind) : a.arguments kind ≠ [] := by
  obtain ⟨c, hc, hk⟩ := h
  exact fun hnil => arguments_eq_nil.mp hnil c hc hk

theorem arguments_le_top {x : Nat} (h : x ∈ a.arguments kind) : x ≤ a.top := by
  obtain ⟨c, -, -, rfl⟩ := mem_arguments.mp h
  exact Nat.min_le_right _ _

/-- The floor is the largest clamped argument, and 0 without one. -/
theorem floor_eq (a : Arbiter) : a.floor = (a.arguments .floor).max?.getD 0 := by
  rw [Arbiter.floor, List.foldl_max, Nat.zero_max]

/-- The cap is the smallest clamped argument, and the top stage without one. -/
theorem cap_eq (a : Arbiter) : a.cap = (a.arguments .cap).min?.getD a.top := by
  rw [Arbiter.cap, List.foldl_min]
  refine Nat.min_eq_right ?_
  by_cases h : a.arguments .cap = []
  · rw [h]
    exact le_refl a.top
  · exact arguments_le_top (min?_getD_mem h a.top)

theorem floor_le_top (a : Arbiter) : a.floor ≤ a.top := by
  rw [floor_eq]
  by_cases h : a.arguments .floor = []
  · rw [h]
    exact Nat.zero_le a.top
  · exact arguments_le_top (max?_getD_mem h 0)

theorem floor_of_none (h : ∀ c ∈ a.claims, c.kind ≠ .floor) : a.floor = 0 := by
  rw [floor_eq, arguments_eq_nil.mpr h]
  rfl

theorem cap_of_none (h : ∀ c ∈ a.claims, c.kind ≠ .cap) : a.cap = a.top := by
  rw [cap_eq, arguments_eq_nil.mpr h]
  rfl

theorem le_floor {x : Nat} (h : x ∈ a.arguments .floor) : x ≤ a.floor := by
  rw [floor_eq]
  exact List.le_max?_getD_of_mem h

theorem cap_le {x : Nat} (h : x ∈ a.arguments .cap) : a.cap ≤ x := by
  rw [cap_eq]
  exact List.min?_getD_le_of_mem h

theorem floor_given (h : ∃ c ∈ a.claims, c.kind = .floor) :
    ∃ c ∈ a.claims, c.kind = .floor ∧ a.floor = min (c.argument.getD 0) a.top := by
  have hmem := max?_getD_mem (arguments_ne_nil h) 0
  rw [← floor_eq] at hmem
  obtain ⟨c, hc, hk, hx⟩ := mem_arguments.mp hmem
  exact ⟨c, hc, hk, hx.symm⟩

theorem cap_given (h : ∃ c ∈ a.claims, c.kind = .cap) :
    ∃ c ∈ a.claims, c.kind = .cap ∧ a.cap = min (c.argument.getD 0) a.top := by
  have hmem := min?_getD_mem (arguments_ne_nil h) a.top
  rw [← cap_eq] at hmem
  obtain ⟨c, hc, hk, hx⟩ := mem_arguments.mp hmem
  exact ⟨c, hc, hk, hx.symm⟩

theorem heldStage_of_none (h : ∀ c ∈ a.claims, c.kind ≠ .force ∧ c.kind ≠ .freeze) :
    a.heldStage = a.automatic := by
  have hstack : a.stack = none := by
    rw [Arbiter.stack, List.find?_eq_none]
    intro c hc
    simpa using h c (List.mem_reverse.mp hc)
  rw [Arbiter.heldStage, hstack]

theorem heldStage_of_force {c : Claim} {n : Nat} (hc : a.stack = some c) (hk : c.kind = .force)
    (hn : c.argument = some n) : a.heldStage = min n a.top := by
  rw [Arbiter.heldStage, hc]
  simp [Arbiter.clamp, hk, hn]

theorem heldStage_of_freeze {c : Claim} {n : Nat} (hc : a.stack = some c) (hk : c.kind = .freeze)
    (hn : c.captured = some n) : a.heldStage = min n a.top := by
  rw [Arbiter.heldStage, hc]
  simp [Arbiter.clamp, hk, hn]

theorem resolved_eq (a : Arbiter) : a.resolved =
    if min a.heldStage a.cap < a.floor then a.floor else min a.heldStage a.cap := by
  rw [Arbiter.resolved]
  split <;> omega

theorem resolved_of_cap_lt_floor (h : a.cap < a.floor) : a.resolved = a.floor := by
  rw [Arbiter.resolved]
  omega

theorem floor_le_resolved (a : Arbiter) : a.floor ≤ a.resolved := Nat.le_max_left _ _

theorem resolved_le_top (a : Arbiter) : a.resolved ≤ a.top := by
  have hcap : a.cap ≤ a.top := by
    rw [Arbiter.cap, List.foldl_min]
    exact Nat.min_le_left _ _
  exact Nat.max_le.mpr ⟨floor_le_top a, (Nat.min_le_right _ _).trans hcap⟩

/-- INJECT claims take no part in a resolution (R65, R73). -/
theorem resolved_without_inject (a : Arbiter) :
    Arbiter.resolved { a with claims := a.claims.filter fun c => c.kind != .inject } = a.resolved := by
  have hstack : Arbiter.stack { a with claims := a.claims.filter fun c => c.kind != .inject } =
      a.stack := by
    unfold Arbiter.stack
    dsimp only
    rw [← List.filter_reverse, List.find?_filter]
    congr 1
    funext c
    cases c.kind <;> rfl
  have harguments (kind : ClaimKind) (hk : kind ≠ .inject) :
      Arbiter.arguments { a with claims := a.claims.filter fun c => c.kind != .inject } kind =
        a.arguments kind := by
    unfold Arbiter.arguments
    dsimp only
    rw [List.filter_filter]
    congr 1
    refine List.filter_congr fun c _ => ?_
    by_cases hc : c.kind = kind <;> simp [hc, hk]
  unfold Arbiter.resolved Arbiter.floor Arbiter.cap Arbiter.heldStage
  rw [hstack, harguments .floor (by decide), harguments .cap (by decide)]
  rfl

end Resolution

/-- Settles O28: the clauses are the lemmas on the held stage, the floor, the cap and what they give. -/
theorem effectiveStageIsHeldStageUnderCapAndFloor :
    Obligations.EffectiveStageIsHeldStageUnderCapAndFloor := by
  intro a
  refine ⟨fun c hc => ⟨fun _ => heldStage_of_force hc, fun _ => heldStage_of_freeze hc⟩,
    heldStage_of_none, floor_of_none, fun c hc n hk hn => le_floor (argument_mem hc hk hn), floor_given,
    cap_of_none, fun c hc n hk hn => cap_le (argument_mem hc hk hn), cap_given, resolved_eq a,
    resolved_of_cap_lt_floor, resolved_le_top a,
    fun c hc n hk hn => (le_floor (argument_mem hc hk hn)).trans (floor_le_resolved a), ?_, ?_⟩
  · rintro b rfl
    exact resolved_without_inject a
  · rintro p s rfl
    rw [resolve_arbiter]

end Sys2Proof.Machine
end

section
namespace Sys2Proof.Machine

/-! ### The checks of PUSH_CLAIM (O30) -/

/-- The kind bytes 0 to 4 name the kinds with these codes (R176). -/
theorem claimKindOf_of_lt {n : Nat} (h : n < 5) : ∃ k, claimKindOf n = some k ∧ k.code = n := by
  match n with
  | 0 => exact ⟨.force, rfl, rfl⟩
  | 1 => exact ⟨.floor, rfl, rfl⟩
  | 2 => exact ⟨.cap, rfl, rfl⟩
  | 3 => exact ⟨.freeze, rfl, rfl⟩
  | 4 => exact ⟨.inject, rfl, rfl⟩

theorem claimRequest_unknown {b : List Byte} (h : 5 ≤ byteAt b 0) : claimRequest b = none := by
  have hkind : claimKindOf (byteAt b 0) = none := by
    rw [claimKindOf_eq, List.getElem?_eq_none]
    exact h
  rw [claimRequest, hkind]
  rfl

/-- A request with a known kind byte carries the fields of R178. -/
theorem claimRequest_known {b : List Byte} (h : byteAt b 0 < 5) :
    ∃ q, claimRequest b = some q ∧ q.kind.code = byteAt b 0 ∧ q.kept = bitAt b 1 0 ∧
      q.argument = wordAt b 2 ∧ q.deadline = if tripleAt b 4 = 0 then none else some (tripleAt b 4) := by
  obtain ⟨k, hk, hcode⟩ := claimKindOf_of_lt h
  rw [claimRequest, hk]
  exact ⟨_, rfl, hcode, rfl, rfl, rfl⟩

/-- The argument, tie and deadline checks of R69 in their order; a deadline of 0 is absent. -/
theorem refusal_eq {q : ClaimRequest} {d : Nat} (hd : q.deadline = if d = 0 then none else some d) :
    q.refusal =
      if (q.kind.code ≤ 2 ∧ 11 < q.argument) ∨ (q.kind.code = 4 ∧ 20000 < q.argument) then some 2
      else if q.kind.code = 4 ∧ q.kept = true then some 3
      else if 86400 < d ∨ (q.kind.code = 4 ∧ (d = 0 ∨ 3600 < d)) then some 4
      else none := by
  obtain ⟨kind, kept, argument, deadline⟩ := q
  dsimp only at hd
  subst hd
  cases kind with
  | force | floor | cap | freeze | inject =>
    by_cases h0 : d = 0 <;> simp [ClaimRequest.refusal, ClaimKind.code, h0]

section Checks

variable {seat : Seat} {h : Header} {b : List Byte} {s : State}

theorem pushClaimCommand_count (hr : h.records ≠ 1) :
    pushClaimCommand seat h b s = denied seat .badValue 0 s := if_pos hr

theorem pushClaimCommand_noPortal (hr : h.records = 1) (hn : h.portals = []) :
    pushClaimCommand seat h b s = denied seat .badValue 0 s :=
  (if_neg (not_not.mpr hr)).trans (if_pos hn)

variable (hr : h.records = 1) (hn : h.portals ≠ [])
include hr hn

theorem pushClaimCommand_unknown (hq : claimRequest b = none) :
    pushClaimCommand seat h b s = denied seat .badValue 1 s := by
  rw [pushClaimCommand, if_neg (not_not.mpr hr), if_neg hn, hq]
  rfl

theorem pushClaimCommand_refused {q : ClaimRequest} (hq : claimRequest b = some q) {value : Nat}
    (hv : q.refusal = some value) : pushClaimCommand seat h b s = denied seat .badValue value s := by
  rw [pushClaimCommand, if_neg (not_not.mpr hr), if_neg hn, hq]
  dsimp only
  rw [hv]
  rfl

/-- The quota (R70) is checked last, in each named list, in ascending order of portal number. -/
theorem pushClaimCommand_quota {q : ClaimRequest} (hq : claimRequest b = some q)
    (hv : q.refusal = none) {p : Fin 4}
    (hp : h.portals.find? (fun p => decide (4 ≤ (s.arbiter p).countOf seat)) = some p) :
    pushClaimCommand seat h b s = denied seat .quota p.val s := by
  rw [pushClaimCommand, if_neg (not_not.mpr hr), if_neg hn, hq]
  dsimp only
  rw [hv]
  dsimp only
  rw [hp]
  rfl

end Checks

/-- Settles O30: each check refuses the whole command, once those before it have passed. -/
theorem pushClaimRefusesInTheOrderOfItsChecks : Obligations.PushClaimRefusesInTheOrderOfItsChecks := by
  intro seat h b s hp hb deny kind argument deadline badArgument keptInject badDeadline
  have refuses {code : ResultCode} {value : Nat}
      (hc : pushClaimCommand seat h b s = denied seat code value s) : deny code value :=
    congrArg done ((withRecord_run hp hb _).trans hc)
  refine ⟨fun hr => refuses (pushClaimCommand_count hr),
    fun hr hn => refuses (pushClaimCommand_noPortal hr hn), fun hr hn => ⟨fun hkind =>
      refuses (pushClaimCommand_unknown hr hn (claimRequest_unknown hkind)), fun hkind => ?_,
      fun hkind => ?_, fun hkind => ?_, fun p hkind => ?_⟩⟩ <;>
    obtain ⟨q, hq, hcode, hkept, hargument, hdeadline⟩ := claimRequest_known hkind <;>
    have hrefusal := refusal_eq hdeadline <;>
    rw [hcode, hkept, hargument] at hrefusal
  · exact fun hbad => refuses (pushClaimCommand_refused hr hn hq (hrefusal.trans (if_pos hbad)))
  · intro harg hbad
    rw [if_neg harg, if_pos hbad] at hrefusal
    exact refuses (pushClaimCommand_refused hr hn hq hrefusal)
  · intro harg htie hbad
    rw [if_neg harg, if_neg htie, if_pos hbad] at hrefusal
    exact refuses (pushClaimCommand_refused hr hn hq hrefusal)
  · intro harg htie hlate hfull
    rw [if_neg harg, if_neg htie, if_neg hlate] at hrefusal
    exact refuses (pushClaimCommand_quota hr hn hq hrefusal hfull)

end Sys2Proof.Machine
end

section
namespace Sys2Proof.Machine

/-! ### Allocation (O32) -/

/-- The number that stands `i` places after `k` in the order of R66, which goes on from 65,535 with 1. -/
def numberAfter (k i : Nat) : Nat := (k - 1 + i) % 65535 + 1

theorem numberAfter_zero {k : Nat} (h1 : 1 ≤ k) (h2 : k ≤ 65535) : numberAfter k 0 = k := by
  unfold numberAfter
  omega

theorem numberAfter_range (k i : Nat) : 1 ≤ numberAfter k i ∧ numberAfter k i ≤ 65535 := by
  unfold numberAfter
  omega

theorem nextNumber_numberAfter (k i : Nat) : nextNumber (numberAfter k i) = numberAfter k (i + 1) := by
  unfold nextNumber numberAfter
  split <;> omega

/-- Fewer than 65,535 places apart, numbers differ. -/
theorem numberAfter_inj {k i j : Nat} (hi : i < 65535) (hj : j < 65535)
    (h : numberAfter k i = numberAfter k j) : i = j := by
  unfold numberAfter at h
  omega

/-- The search passes held numbers, and ends at one that is free or after all its steps (R66). -/
theorem allocate_spec (s : State) (k i steps : Nat) : ∃ j, j ≤ steps ∧
    s.allocate (numberAfter k i) steps = numberAfter k (i + j) ∧
    (∀ m, m < j → s.numberHeld (numberAfter k (i + m)) = true) ∧
    (j < steps → s.numberHeld (numberAfter k (i + j)) = false) := by
  induction steps generalizing i with
  | zero => exact ⟨0, le_refl 0, rfl, fun m hm => absurd hm m.not_lt_zero, fun h => absurd h (lt_irrefl 0)⟩
  | succ steps ih =>
    cases hheld : s.numberHeld (numberAfter k i) with
    | false =>
      refine ⟨0, Nat.zero_le _, ?_, fun m hm => absurd hm m.not_lt_zero, fun _ => hheld⟩
      rw [State.allocate, hheld]
      rfl
    | true =>
      obtain ⟨j, hj, hfound, hpassed, hfree⟩ := ih (i + 1)
      have hplace (m : Nat) : i + 1 + m = i + (m + 1) := by omega
      refine ⟨j + 1, Nat.succ_le_succ hj, ?_, fun m hm => ?_, fun h => ?_⟩
      · rw [State.allocate, hheld, if_pos rfl, nextNumber_numberAfter, hfound, hplace]
      · cases m with
        | zero => exact hheld
        | succ m => exact hplace m ▸ hpassed m (Nat.lt_of_succ_lt_succ hm)
      · exact hplace j ▸ hfree (Nat.lt_of_succ_lt_succ h)

/-- The numbers that the four lists hold. -/
def State.heldNumbers (s : State) : List Nat :=
  allPortals.flatMap fun p => (s.arbiter p).claims.map Claim.number

theorem mem_heldNumbers {s : State} {n : Nat} :
    n ∈ s.heldNumbers ↔ ∃ p, ∃ c ∈ (s.arbiter p).claims, c.number = n := by
  simp [State.heldNumbers, mem_allPortals]

theorem numberHeld_iff {s : State} {n : Nat} : s.numberHeld n = true ↔ n ∈ s.heldNumbers := by
  simp [mem_heldNumbers, State.numberHeld, mem_allPortals, Arbiter.holds]

theorem claims_length (a : Arbiter) :
    a.claims.length = a.countOf .A + a.countOf .B + a.countOf .L := by
  unfold Arbiter.countOf
  induction a.claims with
  | nil => rfl
  | cons c rest ih =>
    cases hc : c.seat <;> simp [hc] <;> omega

/-- Within the quota at most 48 numbers are held: 4 of each of three seats in each of four lists. -/
theorem heldNumbers_length_le {s : State} (h : ClaimsWf s) : s.heldNumbers.length ≤ 48 := by
  have hlist (p : Fin 4) : (s.arbiter p).claims.length ≤ 12 := by
    have hA := h p .A
    have hB := h p .B
    have hL := h p .L
    rw [claims_length]
    omega
  have h0 := hlist 0
  have h1 := hlist 1
  have h2 := hlist 2
  have h3 := hlist 3
  simp only [State.heldNumbers, allPortals, List.flatMap_cons, List.flatMap_nil, List.length_append,
    List.length_map, List.length_nil]
  omega

/-- Among 49 numbers in a row one is free. -/
theorem not_all_held {s : State} (h : ClaimsWf s) (k : Nat) :
    ¬ ∀ m, m < 49 → numberAfter k m ∈ s.heldNumbers := by
  intro hall
  have hnodup : ((List.range 49).map (numberAfter k)).Nodup :=
    List.Nodup.map_on (fun i hi j hj hij => by
      rw [List.mem_range] at hi hj
      exact numberAfter_inj (by omega) (by omega) hij) List.nodup_range
  have hsub : (List.range 49).map (numberAfter k) ⊆ s.heldNumbers := by
    intro n hn
    obtain ⟨m, hm, rfl⟩ := List.mem_map.mp hn
    exact hall m (List.mem_range.mp hm)
  have hlen := hnodup.length_le_of_subset hsub
  have hfew := heldNumbers_length_le h
  rw [List.length_map, List.length_range] at hlen
  omega

/-- Settles O32: the search of `allocate_spec` cannot pass 49 held numbers. -/
theorem allocatedNumberIsHeldInNoList : Obligations.AllocatedNumberIsHeldInNoList := by
  intro s hwf hlow hhigh held onward
  obtain ⟨j, hj, hfound, hpassed, hfree⟩ := allocate_spec s s.claimCounter 0 49
  simp only [Nat.zero_add, numberAfter_zero hlow hhigh] at hfound hpassed hfree
  have hstops : j < 49 := by
    refine lt_of_le_of_ne hj fun hall => not_all_held hwf s.claimCounter fun m hm => ?_
    exact numberHeld_iff.mp (hpassed m (hall ▸ hm))
  have hnot : ¬ held (numberAfter s.claimCounter j) := by
    intro hheld
    have := numberHeld_iff.mpr (mem_heldNumbers.mpr hheld)
    rw [hfree hstops] at this
    exact Bool.false_ne_true this
  rw [hfound]
  exact ⟨⟨j, Nat.le_of_lt_succ hstops, rfl,
    fun m hm => mem_heldNumbers.mp (numberHeld_iff.mp (hpassed m hm))⟩, hnot,
    numberAfter_range s.claimCounter j⟩

end Sys2Proof.Machine
end

section
namespace Sys2Proof.Machine

/-! ### What is posted when claims leave a list (R74 to R81) -/

/-- Claims that are told of one after the other: each seat takes the events of its own. -/
theorem forEach_tell_queue (event : Claim → Event) (seat : Seat) (l : List Claim) (s : State) :
    (forEach l (fun c u => postTo c.seat (event c) u) s).queue seat =
      ((l.filter fun c => c.seat == seat).map event).foldl (fun q e => q.place e s.uptime)
        (s.queue seat) := by
  induction l generalizing s with
  | nil => rfl
  | cons c rest ih =>
    rw [forEach, ih, postTo, queue_setQueue]
    by_cases hc : c.seat = seat
    · subst hc
      simp [State.uptime, State.tenths]
    · simp [hc, State.uptime, State.tenths]

/-- An operation that tells each owner of its claim. -/
def TellsOwner (event : Claim → Event) (tell : Claim → State → State) : Prop :=
  ∀ c, (event c).kind ≠ 2 ∧ tell c = postTo c.seat (event c)

theorem TellsOwner.tells {event : Claim → Event} {tell : Claim → State → State}
    (h : TellsOwner event tell) : Tells tell := by
  intro P hp c s hs
  obtain ⟨hkind, htell⟩ := h c
  rw [htell]
  exact hp _ _ _ hkind hs

/-- The owners of the claims that leave are told of them, and every seat of what follows. -/
theorem removeClaims_told {event : Claim → Event} {tell : Claim → State → State}
    (ht : TellsOwner event tell) (p : Fin 4) (gone : Claim → Bool) (s : State) :
    ∃ follow : List Event, ((s.arbiter p).claims.filter gone = [] → follow = []) ∧
      (∀ e ∈ follow, StageOrSource p e) ∧
      ∀ seat, (removeClaims p gone tell s).queue seat =
        (((((s.arbiter p).claims.filter gone).filter fun c => c.seat == seat).map event) ++
          follow).foldl (fun q e => q.place e s.uptime) (s.queue seat) := by
  cases hany : (s.arbiter p).claims.any gone with
  | false =>
    have hnone : (s.arbiter p).claims.filter gone = [] := by
      rw [List.filter_eq_nil_iff]
      simpa using hany
    rw [removeClaims_of_none hany, hnone]
    exact ⟨[], fun _ => rfl, fun e he => absurd he List.not_mem_nil, fun seat => rfl⟩
  | true =>
    have hsome : (s.arbiter p).claims.filter gone ≠ [] := by
      rw [Ne, List.filter_eq_nil_iff]
      simpa using hany
    obtain ⟨-, follow, hfollow, hqueue⟩ :=
      claimsChanged_broadcasts p ((s.arbiter p).topInject.any gone) (claimsGone p gone tell s)
    have htell : tell = fun c => postTo c.seat (event c) := funext fun c => (ht c).2
    have hnow := congrArg State.now (claimsGone_rest (p := p) (gone := gone) (s := s) ht.tells)
    have hup : (claimsGone p gone tell s).uptime = s.uptime := uptime_of_now hnow
    refine ⟨follow, fun h => absurd h hsome, hfollow, fun seat => ?_⟩
    rw [removeClaims_of_any hany, hqueue, hup, List.foldl_append]
    congr 1
    rw [claimsGone, htell]
    exact forEach_tell_queue event seat _ _

/-- `InjectionAfter` asks of the claims of the list alone whether they leave. -/
theorem InjectionAfter.congr_gone {p : Fin 4} {gone gone' : Claim → Bool} {s t : State}
    (hi : InjectionAfter p gone s t) (h : ∀ c ∈ (s.arbiter p).claims, gone c = gone' c) :
    InjectionAfter p gone' s t := by
  have hfilter : ((s.arbiter p).claims.filter fun c => !gone c) =
      (s.arbiter p).claims.filter fun c => !gone' c := List.filter_congr fun c hc => by rw [h c hc]
  have htop : ((s.arbiter p).claims.reverse.find? fun c => c.kind == .inject).any gone =
      ((s.arbiter p).claims.reverse.find? fun c => c.kind == .inject).any gone' := by
    cases hf : (s.arbiter p).claims.reverse.find? fun c => c.kind == .inject with
    | none => rfl
    | some c => exact h c (List.mem_reverse.mp (List.mem_of_find?_eq_some hf))
  unfold InjectionAfter at hi ⊢
  dsimp only at hi ⊢
  rwa [hfilter, htop] at hi

/-- `InjectionAfter` looks at the Portal Evaluator alone. -/
theorem InjectionAfter.of_eval {p : Fin 4} {gone : Claim → Bool} {s t u : State}
    (he : u.eval p = t.eval p) (h : InjectionAfter p gone s t) : InjectionAfter p gone s u := by
  unfold InjectionAfter at h ⊢
  rwa [he]

end Sys2Proof.Machine
end

section
namespace Sys2Proof.Machine

/-! ### CLAIM_EXPIRED (O34) -/

/-- Whether a claim is the copy that an expiry is about. -/
def State.expires (s : State) (n : Nat) (c : Claim) : Bool := c.number == n && s.passed c.deadline

theorem exec_claimExpired (p : Fin 4) (n : Nat) (s : State) :
    exec (.claimExpired p n) s = done (removeClaims p (s.expires n) (tellExpired p) s) := rfl

theorem tellExpired_tells (p : Fin 4) :
    TellsOwner (fun c => .claimExpired p c.number c.kind) (tellExpired p) :=
  fun _ => ⟨by simp [Event.kind], rfl⟩

theorem expires_eq_false {s : State} {n : Nat} {c : Claim}
    (h : c.number = n → ∀ d ∈ c.deadline, s.tenths < d) : s.expires n c = false := by
  rw [State.expires, Bool.and_eq_false_iff]
  by_cases hn : c.number = n
  · refine Or.inr ?_
    cases hd : c.deadline with
    | none => rfl
    | some d => exact decide_eq_false (Nat.not_le.mpr (h hn d hd))
  · exact Or.inl (beq_false_of_ne hn)

theorem expires_of_passed {s : State} {c : Claim} {d : Nat} (hd : c.deadline = some d)
    (hpassed : d ≤ s.tenths) : s.expires c.number c = true := by
  simp [State.expires, State.passed, hd, hpassed]

/-- The claim that one test of a list picks, where it picks no other. -/
theorem filter_split {α : Type} {test : α → Bool} {before after : List α} {c : α}
    (hc : test c = true) (hothers : ∀ x ∈ before ++ after, test x = false) :
    (before ++ c :: after).filter test = [c] ∧
      (before ++ c :: after).filter (fun x => !test x) = before ++ after := by
  have hno (x : α) (hx : x ∈ before ++ after) : ¬ test x = true := by simp [hothers x hx]
  have hnil (l : List α) (hl : l ⊆ before ++ after) : l.filter test = [] :=
    List.filter_eq_nil_iff.mpr fun x hx => hno x (hl hx)
  have hall (l : List α) (hl : l ⊆ before ++ after) : l.filter (fun x => !test x) = l :=
    List.filter_eq_self.mpr fun x hx => by simp [hothers x (hl hx)]
  have hb : before ⊆ before ++ after := List.subset_append_left _ _
  have ha : after ⊆ before ++ after := List.subset_append_right _ _
  constructor
  · rw [List.filter_append, List.filter_cons_of_pos hc, hnil _ hb, hnil _ ha]
    rfl
  · rw [List.filter_append, List.filter_cons_of_neg (by simp [hc]), hall _ hb, hall _ ha]

/-- One copy of a list is its topmost INJECT claim where no INJECT claim stands after it (R65). -/
theorem topInject_split {a : Arbiter} {gone : Claim → Bool} {before after : List Claim} {c : Claim}
    (h : a.claims = before ++ c :: after) (hc : gone c = true)
    (hothers : ∀ x ∈ before ++ after, gone x = false) :
    a.topInject.any gone = true ↔ c.kind = .inject ∧ ∀ x ∈ after, x.kind ≠ .inject := by
  have hreverse : a.claims.reverse = after.reverse ++ c :: before.reverse := by simp [h]
  rw [Arbiter.topInject, hreverse, List.find?_append]
  cases hf : after.reverse.find? fun c => c.kind == .inject with
  | some x =>
    have hx : x ∈ after := List.mem_reverse.mp (List.mem_of_find?_eq_some hf)
    have hkind : x.kind = .inject := by simpa using List.find?_some hf
    have hspared : gone x = false := hothers x (List.mem_append_right _ hx)
    simp only [Option.some_or, Option.any_some, hspared, Bool.false_eq_true, false_iff]
    exact fun hall => hall.2 x hx hkind
  | none =>
    have hafter : ∀ x ∈ after, x.kind ≠ .inject := by simpa using hf
    rw [Option.none_or]
    by_cases hk : c.kind = .inject
    · rw [List.find?_cons_of_pos (by simp [hk])]
      simpa [hc, hk] using hafter
    · rw [List.find?_cons_of_neg (by simp [hk])]
      simp only [hk, false_and, iff_false]
      intro hany
      obtain ⟨x, hx, hg⟩ := (Option.any_eq_true _ _).mp hany
      have hmem : x ∈ before := List.mem_reverse.mp (List.mem_of_find?_eq_some hx)
      rw [hothers x (List.mem_append_left _ hmem)] at hg
      exact Bool.false_ne_true hg

section Expiry

variable {p : Fin 4} {d : Nat} {c : Claim} {before after : List Claim} {s : State}
  (hclaims : (s.arbiter p).claims = before ++ c :: after)
  (hothers : ∀ x ∈ before ++ after, x.number ≠ c.number) (hdue : s.expires c.number c = true)
include hclaims hothers hdue

/-- Where a list holds no number twice, the expiry is about the copy with the number (R64). -/
theorem expires_eq_number {x : Claim} (hx : x ∈ (s.arbiter p).claims) :
    s.expires c.number x = (x.number == c.number) := by
  by_cases hmem : x ∈ before ++ after
  · rw [beq_false_of_ne (hothers x hmem)]
    exact expires_eq_false fun h => absurd h (hothers x hmem)
  · have hxc : x = c := by
      rw [hclaims] at hx
      simp only [List.mem_append, List.mem_cons] at hx hmem
      tauto
    rw [hxc, hdue, beq_self_eq_true]

theorem expires_filter :
    (s.arbiter p).claims.filter (s.expires c.number) = [c] ∧
      (s.arbiter p).claims.filter (fun x => !s.expires c.number x) = before ++ after := by
  rw [hclaims]
  exact filter_split hdue fun x hx => expires_eq_false fun h => absurd h (hothers x hx)

theorem expires_topInject : (s.arbiter p).topInject.any (s.expires c.number) = true ↔
    c.kind = .inject ∧ ∀ x ∈ after, x.kind ≠ .inject :=
  topInject_split hclaims hdue fun x hx => expires_eq_false fun h => absurd h (hothers x hx)

/-- The copy leaves, its owner is told, and the portal resolves, and evaluates after that where the copy was
its topmost INJECT claim (R72, R75, R79). -/
theorem removeClaims_expired : removeClaims p (s.expires c.number) (tellExpired p) s =
    claimsChanged p ((s.arbiter p).topInject.any (s.expires c.number))
      (postTo c.seat (.claimExpired p c.number c.kind)
        (s.setArbiter p { s.arbiter p with claims := before ++ after })) := by
  obtain ⟨hpicked, hleft⟩ := expires_filter hclaims hothers hdue
  rw [removeClaims_of_any (List.any_eq_true.mpr ⟨c, by simp [hclaims], hdue⟩), claimsGone, hpicked, hleft]
  rfl

end Expiry

/-- Settles O34: the expiry is a removal of the one copy that its test picks. -/
theorem expiredCopyLeavesItsList : Obligations.ExpiredCopyLeavesItsList := by
  refine ⟨fun p n s hnone => ?_, fun p n d c before after s hclaims hnumber hd hpassed hothers => ?_⟩
  · have hany : (s.arbiter p).claims.any (s.expires n) = false := by
      rw [List.any_eq_false]
      intro c hc
      rw [expires_eq_false (hnone c hc)]
      exact Bool.false_ne_true
    rw [exec_claimExpired, removeClaims_of_none hany]
  · intro topmost told
    subst hnumber
    have hdue : s.expires c.number c = true := expires_of_passed hd hpassed
    have ht := tellExpired_tells p
    have hremoved := removeClaims_expired hclaims hothers hdue
    have htop := expires_topInject hclaims hothers hdue
    obtain ⟨hpicked, hleft⟩ := expires_filter hclaims hothers hdue
    obtain ⟨follow, -, hfollow, hqueue⟩ := removeClaims_told ht p (s.expires c.number) s
    obtain ⟨hclock, hsets, hmeters, htrips, hports, hcounter⟩ :=
      (removeClaims_around (p := p) (gone := s.expires c.number) (s := s) ht.tells).begun
    refine ⟨fun h => ?_, fun h => ?_, _, exec_claimExpired p c.number s, ?_, ⟨follow, hfollow,
      fun seat => ?_⟩, ?_, ?_, fun q hq => ?_, hclock, hsets, hmeters, htrips, hports, hcounter,
      fun low hlow hkind hstage => ?_⟩
    · rw [exec_claimExpired, hremoved, htop.mpr h, claimsChanged_true]
    · rw [exec_claimExpired, hremoved, Bool.eq_false_iff.mpr (htop.not.mpr h), claimsChanged_false]
    · rw [State.arbiter, beginTransactions_arbiters, ← hleft]
      exact removeClaims_claims ht.tells
    · rw [beginTransactions_queue, hqueue, hpicked]
      by_cases hseat : c.seat = seat
      · simp [hseat]
      · simp [hseat, Ne.symm hseat]
    · exact InjectionAfter.of_eval (beginTransactions_eval p _)
        ((removeClaims_injectionAfter ht.tells).congr_gone fun x hx =>
          expires_eq_number hclaims hothers hdue hx)
    · rw [State.arbiter, beginTransactions_arbiters]
      exact removeClaims_settled (List.any_eq_true.mpr ⟨c, by simp [hclaims], hdue⟩)
    · obtain ⟨⟨-, heval, hselector, harbiter, hzones, -⟩, -⟩ :=
        (removeClaims_local (p := p) (gone := s.expires c.number) (s := s) ht.tells).others q hq
      refine ⟨?_, (beginTransactions_selector q _).trans hselector,
        (beginTransactions_eval q _).trans heval, ?_⟩
      · rw [State.arbiter, beginTransactions_arbiters]
        exact harbiter
      · rw [beginTransactions_zones]
        exact hzones
    · rw [removeClaims_plain ht.tells hpicked hkind (hleft ▸ hlow) hstage]
      rfl

end Sys2Proof.Machine
end

section
namespace Sys2Proof.Machine

/-! ### The hands of channels, as zones receive their levels (R87, R89) -/

section Arrivals

variable {P : State → Prop} {p : Fin 4} {C : Circuit → Prop} (h : KeptByOutput p C P)
include h

/-- A target that arrives plans its zone, or is stored in it (R89). -/
theorem KeptByOutput.arrive (z : Fin 5) (target : Nat) (s : State) (hs : P s) :
    P (zoneArrive p z target s) := by
  have planned (zn : Zone) : P (plan p z zn s) := (h.toPlan z).plan zn s hs
  have stored (zn : Zone) : P (s.setZone p z (some zn)) := h.zone z (some zn) s hs
  unfold zoneArrive
  split
  · exact hs
  · split
    · exact planned _
    · exact planned _
    · exact stored _
    · exact stored _
    · exact planned _
    · split
      · exact planned _
      · exact stored _
    · exact stored _

theorem KeptByOutput.handTargets (s : State) (hs : P s) : P (handTargets p s) :=
  forEach_keeps (fun z _ u hu => h.arrive z _ u hu) s hs

end Arrivals

/-- From `s` to `u` every channel stays in AUTO, or in HAND for its seat at its hand level. -/
def SameHands (s u : State) : Prop := ∀ c, (u.channel c).hand = (s.channel c).hand

theorem SameHands.trans {s t u : State} (h : SameHands s t) (k : SameHands t u) : SameHands s u :=
  fun c => (k c).trans (h c)

theorem SameHands.of_channels {s u : State} (h : u.channels = s.channels) : SameHands s u := fun c => by
  rw [State.channel, h]

/-- Channel Output writes targets and levels. -/
theorem SameHands.output (p : Fin 4) (s : State) : KeptByOutput p (fun _ => True) (SameHands s) where
  scope := fun _ _ _ _ => trivial
  zone := fun _ _ _ h => h
  aim := fun k x u _ h c => by
    rw [State.channel, State.setChannel_channels, rd_wr]
    split
    · next hc => exact hc ▸ h k.cfg.channel
    · exact h c
  command := fun k level u _ h c => by
    rw [State.channel, command_channels, rd_wr]
    split
    · next hc => exact hc ▸ h k.cfg.channel
    · exact h c
  post := fun _ _ h => h
  trip := fun _ _ h => h
  line := fun _ _ h => h

theorem resolve_hands (p : Fin 4) (s : State) : SameHands s (resolve p s) := by
  have hstage : SameHands s (resolveStage p s) := .of_channels (resolveStage_daylight p s).channels
  unfold resolve
  dsimp only
  split
  · exact hstage
  · exact (SameHands.output p s).handTargets _ hstage

theorem moveTo_hands (p : Fin 4) (stage : Nat) (s : State) : SameHands s (moveTo p stage s) :=
  resolve_hands p (setStage p stage s)

/-- What the Stage Selector is handed moves the stage, or writes the selector alone. -/
theorem handOver_hands (p : Fin 4) (base : BaseState) (status : SourceStatus) (s : State) :
    SameHands s (handOver p base status s) := by
  have same : SameHands s s := fun _ => rfl
  have followed (following : Bool) (demand : Option Nat) (stage : Nat) :
      SameHands s (moveTo p stage (follow p following demand s)) :=
    moveTo_hands p stage (follow p following demand s)
  have offered (demand : Nat) : SameHands s (offer p demand s) := by
    unfold offer
    dsimp only
    split
    · exact followed _ _ _
    · unfold downward
      dsimp only
      split
      · exact followed _ _ _
      · exact same
  unfold handOver
  dsimp only
  split
  · split
    · exact offered _
    · split
      · split
        · exact same
        · exact followed _ _ _
      · split
        · exact followed _ _ _
        · split
          · exact offered _
          · exact same
  · exact same

theorem evaluate_hands (p : Fin 4) (s : State) : SameHands s (evaluate p s) :=
  (SameHands.of_channels (evaluateOnly_same p s).1.daylight.channels).trans (handOver_hands p _ _ _)

theorem claimsChanged_hands (p : Fin 4) (injection : Bool) (s : State) :
    SameHands s (claimsChanged p injection s) := by
  cases injection with
  | false =>
    rw [claimsChanged_false]
    exact resolve_hands p s
  | true =>
    rw [claimsChanged_true]
    exact (resolve_hands p s).trans (evaluate_hands p _)

/-- Claims that leave a list bring about levels, and release no hand. -/
theorem removeClaims_hands {p : Fin 4} {gone : Claim → Bool} {tell : Claim → State → State} {s : State}
    (ht : Tells tell) : SameHands s (removeClaims p gone tell s) := by
  cases hany : (s.arbiter p).claims.any gone with
  | false =>
    rw [removeClaims_of_none hany]
    exact fun _ => rfl
  | true =>
    have hgone : (claimsGone p gone tell s).channels = s.channels := by
      have h := congrArg State.channels (claimsGone_rest (p := p) (gone := gone) (s := s) ht)
      exact h
    rw [removeClaims_of_any hany]
    exact (SameHands.of_channels hgone).trans (claimsChanged_hands p _ _)

/-! ### A channel's return to AUTO (R87, R102) -/

/-- The channel itself is freed, and no other. -/
theorem returnToAuto_hand (k : Circuit) (c : Fin 32) (s : State) :
    ((returnToAuto k s).channel c).hand =
      if k.cfg.channel = c then none else (s.channel c).hand := by
  obtain ⟨freed, hfreed⟩ :
      ∃ u, u = s.setChannel k.cfg.channel { s.channel k.cfg.channel with hand := none } := ⟨_, rfl⟩
  have hhand : (freed.channel c).hand = if k.cfg.channel = c then none else (s.channel c).hand := by
    rw [hfreed, State.channel, State.setChannel_channels, rd_wr]
    split <;> rfl
  have output := SameHands.output k.portal freed
  have same : SameHands freed freed := fun _ => rfl
  have held : SameHands freed (holdTarget k freed) := output.aim k _ freed trivial same
  have hout : SameHands freed (returnToAuto k s) := by
    unfold returnToAuto
    dsimp only
    rw [← hfreed]
    split
    · exact output.drive trivial _ same
    · refine (output.toPlan _).testComplete _ (output.drive trivial _ ?_)
      split
      · exact held
      · exact same
  rw [hout c, hhand]

end Sys2Proof.Machine
end

section
namespace Sys2Proof.Machine

/-! ### What portals tell that act one after the other -/

/-- Each portal tells each seat events of its own, and every seat of what follows there. -/
theorem ActsAt.told {f : Fin 4 → State → State} (h : ActsAt f) {own : Fin 4 → Seat → List Event}
    {Follows : Fin 4 → List Event → Prop} {l : List (Fin 4)} (hn : l.Nodup) {s : State}
    (hf : ∀ p ∈ l, ∀ u, SamePortal p s u → ∃ follow, Follows p follow ∧ ∀ seat,
      (f p u).queue seat =
        (own p seat ++ follow).foldl (fun q e => q.place e u.uptime) (u.queue seat)) :
    ∃ follow : Fin 4 → List Event, (∀ p ∈ l, Follows p (follow p)) ∧ ∀ seat,
      (forEach l f s).queue seat = (l.flatMap fun p => own p seat ++ follow p).foldl
        (fun q e => q.place e s.uptime) (s.queue seat) := by
  induction l generalizing s with
  | nil => exact ⟨fun _ => [], fun p hp => absurd hp List.not_mem_nil, fun _ => rfl⟩
  | cons a rest ih =>
    obtain ⟨ha, hrest⟩ := List.nodup_cons.mp hn
    have hsame (p : Fin 4) (hp : p ∈ rest) : SamePortal p s (f a s) :=
      ((h a s).1.others p fun hpa => ha (hpa ▸ hp)).1
    obtain ⟨first, hfirst, hqueue⟩ := hf a List.mem_cons_self s (SamePortal.refl a s)
    obtain ⟨later, hlater, hqueues⟩ := ih hrest (s := f a s) fun p hp u hu =>
      hf p (List.mem_cons_of_mem a hp) u ((hsame p hp).trans hu)
    have hup : (f a s).uptime = s.uptime := uptime_of_now (h a s).1.now
    have hkept (p : Fin 4) (hp : p ∈ rest) : Function.update later a first p = later p :=
      Function.update_of_ne (fun hpa : p = a => ha (hpa ▸ hp)) _ _
    refine ⟨Function.update later a first, fun p hp => ?_, fun seat => ?_⟩
    · rcases List.mem_cons.mp hp with rfl | hp
      · rwa [Function.update_self]
      · rw [hkept p hp]
        exact hlater p hp
    · have hflat : (rest.flatMap fun p => own p seat ++ Function.update later a first p) =
          rest.flatMap fun p => own p seat ++ later p :=
        List.flatMap_congr fun p hp => by rw [hkept p hp]
      rw [forEach, hqueues, hup, hqueue, List.flatMap_cons, hflat, Function.update_self,
        ← List.foldl_append]

/-! ### The claims of a silent seat (R81) -/

/-- The TIED claims of a seat in a list. -/
def Arbiter.tied (a : Arbiter) (seat : Seat) : List Claim :=
  a.claims.filter fun c => c.seat == seat && !c.kept

theorem seat_of_tied {a : Arbiter} {seat : Seat} {c : Claim} (h : c ∈ a.tied seat) : c.seat = seat := by
  simp only [Arbiter.tied, List.mem_filter, Bool.and_eq_true, beq_iff_eq] at h
  exact h.2.1

theorem tellSilence_tells (p : Fin 4) :
    TellsOwner (fun c => .claimRemoved p c.number c.kind true) (tellSilence p) :=
  fun _ => ⟨by simp [Event.kind], rfl⟩

/-- The TIED claims of a seat leave the list of one portal. -/
def silencePortal (seat : Seat) (p : Fin 4) (s : State) : State :=
  removeClaims p (fun c => c.seat == seat && !c.kept) (tellSilence p) s

theorem silencePortal_acts (seat : Seat) : ActsAt (silencePortal seat) := fun p _ =>
  ⟨removeClaims_local (tellSilence_tells p).tells, removeClaims_around (tellSilence_tells p).tells⟩

section SilenceClaims

variable (seat : Seat) (s : State)

theorem silenceClaims_eq : silenceClaims seat s = forEach allPortals (silencePortal seat) s := rfl

theorem silenceClaims_around : SameAround s (silenceClaims seat s) :=
  (silencePortal_acts seat).around allPortals s

theorem silenceClaims_hands : SameHands s (silenceClaims seat s) :=
  forEach_keeps (P := SameHands s) (f := silencePortal seat)
    (fun p _ _ hu => hu.trans (removeClaims_hands (tellSilence_tells p).tells)) s fun _ => rfl

/-- Each list loses the TIED claims of the seat, and the portal is evaluated where one of them was its
topmost INJECT claim (R75, R81). -/
theorem silenceClaims_portal (p : Fin 4) :
    ((silenceClaims seat s).arbiter p).claims =
        (s.arbiter p).claims.filter (fun c => !(c.seat == seat && !c.kept)) ∧
      InjectionAfter p (fun c => c.seat == seat && !c.kept) s (silenceClaims seat s) := by
  have ht := (tellSilence_tells p).tells
  obtain ⟨u, hu, -, hafter⟩ :=
    (silencePortal_acts seat).at_portal allPortals_nodup (mem_allPortals p) s
  refine ⟨?_, InjectionAfter.congr hu hafter (removeClaims_injectionAfter ht)⟩
  obtain ⟨-, -, -, huarb, -⟩ := hu
  obtain ⟨-, -, -, harb, -⟩ := hafter
  rw [silenceClaims_eq, harb, silencePortal, removeClaims_claims ht, huarb]

/-- With no TIED claim in any list nothing happens. -/
theorem silenceClaims_of_none (h : ∀ p, (s.arbiter p).tied seat = []) : silenceClaims seat s = s := by
  refine forEach_keeps (P := fun u => u = s) (f := silencePortal seat) (fun p _ u hu => ?_) s rfl
  subst hu
  refine removeClaims_of_none ?_
  rw [List.any_eq_false]
  exact List.filter_eq_nil_iff.mp (h p)

/-- The seat is told of each claim, portal by portal, and every seat of what follows there. -/
theorem silenceClaims_told : ∃ follow : Fin 4 → List Event,
    (∀ p, ((s.arbiter p).tied seat = [] → follow p = []) ∧ ∀ e ∈ follow p, StageOrSource p e) ∧
    ∀ x, (silenceClaims seat s).queue x =
      (allPortals.flatMap fun p =>
        (if x = seat then ((s.arbiter p).tied seat).map fun c => .claimRemoved p c.number c.kind true
          else []) ++ follow p).foldl (fun q e => q.place e s.uptime) (s.queue x) := by
  have hown (p : Fin 4) (x : Seat) : ((s.arbiter p).tied seat).filter (fun c => c.seat == x) =
      if x = seat then (s.arbiter p).tied seat else [] := by
    split
    · next hx => exact List.filter_eq_self.mpr fun c hc => by simp [seat_of_tied hc, hx]
    · next hx =>
      exact List.filter_eq_nil_iff.mpr fun c hc => by simp [seat_of_tied hc, Ne.symm hx]
  obtain ⟨follow, hfollow, hqueue⟩ := (silencePortal_acts seat).told (s := s)
    (own := fun p x => if x = seat then
      ((s.arbiter p).tied seat).map fun c => .claimRemoved p c.number c.kind true else [])
    (Follows := fun p l => ((s.arbiter p).tied seat = [] → l = []) ∧ ∀ e ∈ l, StageOrSource p e)
    allPortals_nodup fun p _ u hu => by
      obtain ⟨-, -, -, harb, -⟩ := hu
      obtain ⟨l, hnil, hl, hq⟩ := removeClaims_told (tellSilence_tells p) p
        (fun c => c.seat == seat && !c.kept) u
      rw [harb] at hnil hq
      refine ⟨l, ⟨hnil, hl⟩, fun x => (hq x).trans ?_⟩
      rw [show (s.arbiter p).claims.filter (fun c => c.seat == seat && !c.kept) =
        (s.arbiter p).tied seat from rfl, hown]
      split <;> rfl
  exact ⟨follow, fun p => hfollow p (mem_allPortals p), hqueue⟩

end SilenceClaims

end Sys2Proof.Machine
end

section
namespace Sys2Proof.Machine

/-! ### The channels of a silent seat (R106) -/

theorem assignment_of_active {s u : State} (h : u.active = s.active) (c : Fin 32) :
    u.assignment c = s.assignment c := by
  unfold State.assignment
  simp only [State.set, h]

/-- What a silent seat is told of one channel. -/
def State.freedBy (s : State) (seat : Seat) (c : Fin 32) : Option Event :=
  match s.assignment c with
  | none => none
  | some k =>
    if (s.channel c).hand.any fun h => h.seat == seat then
      some (.handReleased k.portal c .silence)
    else none

theorem freedBy_congr {s u : State} {c : Fin 32} (ha : u.active = s.active)
    (hh : (u.channel c).hand = (s.channel c).hand) (seat : Seat) :
    u.freedBy seat c = s.freedBy seat c := by
  unfold State.freedBy
  rw [assignment_of_active ha, hh]

theorem freedBy_of_none {s : State} {seat : Seat} {c : Fin 32}
    (h : ∀ x, (s.channel c).hand = some x → x.seat ≠ seat) : s.freedBy seat c = none := by
  have hany : ((s.channel c).hand.any fun x => x.seat == seat) = false := by
    rw [Option.any_eq_false]
    intro x hx
    simpa using h x hx
  unfold State.freedBy
  rw [hany]
  cases s.assignment c <;> rfl

section Channel

variable {seat : Seat} {c : Fin 32} {s : State}

/-- A channel that the seat is told of returns to AUTO. -/
theorem silenceChannel_of_freed {e : Event} (h : s.freedBy seat c = some e) :
    ∃ k, s.assignment c = some k ∧ k.cfg.channel = c ∧ e = .handReleased k.portal c .silence ∧
      silenceChannel seat c s = postTo seat e (returnToAuto k s) := by
  unfold State.freedBy at h
  cases hk : s.assignment c with
  | none => simp [hk] at h
  | some k =>
    cases hh : (s.channel c).hand with
    | none => simp [hk, hh] at h
    | some x =>
      simp only [hk, hh, Option.any_some, Option.ite_none_right_eq_some, beq_iff_eq,
        Option.some.injEq] at h
      obtain ⟨hseat, rfl⟩ := h
      obtain ⟨-, hc⟩ := assignment_spec hk
      refine ⟨k, rfl, hc, rfl, ?_⟩
      unfold silenceChannel
      rw [hk, hh]
      dsimp only
      rw [if_pos hseat, releaseHand, hc]

/-- Any other channel stays as it is. -/
theorem silenceChannel_of_kept (h : s.freedBy seat c = none) : silenceChannel seat c s = s := by
  unfold silenceChannel
  split
  · next k x hk hh =>
    have hseat : x.seat ≠ seat := by
      intro hs
      simp [State.freedBy, hk, hh, hs] at h
    exact if_neg hseat
  · rfl

end Channel

/-- From `s` to `u` nothing was written but zones, channels, lines and queues. -/
def SameButLight (s u : State) : Prop :=
  { u with zones := s.zones, channels := s.channels, lines := s.lines, queues := s.queues } = s

theorem SameButLight.trans {s t u : State} (h : SameButLight s t) (k : SameButLight t u) :
    SameButLight s u := by
  unfold SameButLight at h k
  rw [← k] at h
  exact h

theorem SameButLight.around {s u : State} (h : SameButLight s u) : SameAround s u := by
  rw [← h]
  exact SameAround.refl _

theorem SameButLight.daylight {s u : State} (h : SameButLight s u) : SameDaylight s u := by
  rw [← h]
  exact ⟨rfl, ⟨rfl, rfl⟩, rfl, rfl, rfl⟩

theorem returnToAuto_light (k : Circuit) (s : State) : SameButLight s (returnToAuto k s) :=
  returnToAuto_keeps (p := k.portal) (C := atPortal k.portal)
    { place := fun _ hk => hk, scope := fun _ _ _ hk => circuit_portal hk
      zone := fun _ _ _ h => h, channel := fun _ _ _ _ h => h, enter := fun _ _ _ _ h => h } k rfl s rfl

theorem returnToAuto_quiet (k : Circuit) (s : State) :
    (returnToAuto k s).now = s.now ∧ (returnToAuto k s).queues = s.queues :=
  returnToAuto_keeps (quietLight k.portal s) k rfl s ⟨rfl, rfl⟩

section Channels

variable (seat : Seat) (c : Fin 32) (s : State)

theorem silenceChannel_light : SameButLight s (silenceChannel seat c s) := by
  cases hf : s.freedBy seat c with
  | none =>
    rw [silenceChannel_of_kept hf]
    rfl
  | some e =>
    obtain ⟨k, -, -, -, heq⟩ := silenceChannel_of_freed hf
    rw [heq]
    exact (returnToAuto_light k s).trans rfl

/-- The channel that the seat is told of is freed, and no other. -/
theorem silenceChannel_hand (d : Fin 32) : ((silenceChannel seat c s).channel d).hand =
    if c = d ∧ (s.freedBy seat c).isSome then none else (s.channel d).hand := by
  cases hf : s.freedBy seat c with
  | none => simp [silenceChannel_of_kept hf]
  | some e =>
    obtain ⟨k, -, hc, -, heq⟩ := silenceChannel_of_freed hf
    have hand := returnToAuto_hand k d s
    rw [hc] at hand
    rw [heq]
    change ((returnToAuto k s).channel d).hand = _
    simpa using hand

/-- The hand seat alone is told. -/
theorem silenceChannel_queue (x : Seat) : (silenceChannel seat c s).queue x =
    (if x = seat then (s.freedBy seat c).toList else []).foldl (fun q e => q.place e s.uptime)
      (s.queue x) := by
  cases hf : s.freedBy seat c with
  | none =>
    rw [silenceChannel_of_kept hf]
    split <;> rfl
  | some e =>
    obtain ⟨k, -, -, -, heq⟩ := silenceChannel_of_freed hf
    obtain ⟨hnow, hqueues⟩ := returnToAuto_quiet k s
    have hqueue (y : Seat) : (returnToAuto k s).queue y = s.queue y := by rw [State.queue, hqueues]
    rw [heq, postTo, queue_setQueue, uptime_of_now hnow, hqueue, hqueue]
    by_cases hx : seat = x
    · subst hx
      rw [if_pos rfl, if_pos rfl]
      rfl
    · rw [if_neg hx, if_neg (Ne.symm hx)]
      rfl

theorem silenceChannels_light : SameButLight s (silenceChannels seat s) :=
  forEach_keeps (P := SameButLight s) (fun c _ u hu => hu.trans (silenceChannel_light seat c u)) s rfl

theorem allChannels_eq : allChannels = List.finRange 32 := by decide

theorem mem_allChannels : c ∈ allChannels := allChannels_eq ▸ List.mem_finRange c

theorem allChannels_nodup : allChannels.Nodup := allChannels_eq ▸ List.nodup_finRange 32

/-- Another channel does not change what the seat is told of a channel. -/
theorem freedBy_silenceChannel {d : Fin 32} (h : d ≠ c) :
    (silenceChannel seat c s).freedBy seat d = s.freedBy seat d := by
  obtain ⟨-, ⟨hactive, -⟩, -⟩ := (silenceChannel_light seat c s).around
  refine freedBy_congr hactive ?_ seat
  rw [silenceChannel_hand, if_neg fun hcd => h hcd.1.symm]

/-- Of the assigned channels in HAND, those of the seat return to AUTO. -/
theorem silenceChannels_hand {k : Circuit} {x : Hand} (hk : s.assignment c = some k)
    (hx : (s.channel c).hand = some x) :
    ((silenceChannels seat s).channel c).hand = if x.seat = seat then none else some x := by
  refine forEach_once (f := silenceChannel seat)
    (P := fun u => (u.channel c).hand = if x.seat = seat then none else some x)
    (Q := fun u => u.assignment c = some k ∧ (u.channel c).hand = some x) allChannels_nodup
    (mem_allChannels c) (fun u hu => ?_) (fun d _ hd u hu => ⟨?_, ?_⟩) (fun d _ hd u hu => ?_) s ⟨hk, hx⟩
  · obtain ⟨huk, hux⟩ := hu
    rw [silenceChannel_hand]
    by_cases hseat : x.seat = seat <;> simp [State.freedBy, huk, hux, hseat]
  · obtain ⟨-, ⟨hactive, -⟩, -⟩ := (silenceChannel_light seat d u).around
    exact (assignment_of_active hactive c).trans hu.1
  · rw [silenceChannel_hand, if_neg fun hdc => hd hdc.1]
    exact hu.2
  · rw [silenceChannel_hand, if_neg fun hdc => hd hdc.1]
    exact hu

/-- With no channel in HAND for the seat nothing happens. -/
theorem silenceChannels_of_none (h : ∀ c, s.freedBy seat c = none) : silenceChannels seat s = s := by
  refine forEach_keeps (P := fun u => u = s) (fun c _ u hu => ?_) s rfl
  subst hu
  exact silenceChannel_of_kept (h c)

/-- The seat is told of each channel, in ascending order of channel number (log 13). -/
theorem silenceChannels_queue (x : Seat) : (silenceChannels seat s).queue x =
    (if x = seat then (List.finRange 32).filterMap (s.freedBy seat) else []).foldl
      (fun q e => q.place e s.uptime) (s.queue x) := by
  have h := forEach_queue (seat := x) (f := silenceChannel seat)
    (told := fun c u => if x = seat then (u.freedBy seat c).toList else []) allChannels_nodup
    (fun c _ u => (silenceChannel_light seat c u).around.1.1)
    (fun c _ u => silenceChannel_queue seat c u x)
    (fun c _ d _ hd u => by rw [freedBy_silenceChannel seat c u hd]) s
  have hlist : (allChannels.flatMap fun c => if x = seat then (s.freedBy seat c).toList else []) =
      if x = seat then (List.finRange 32).filterMap (s.freedBy seat) else [] := by
    rw [List.filterMap_eq_flatMap_toList, allChannels_eq]
    split
    · rfl
    · exact List.flatMap_eq_nil_iff.mpr fun _ _ => rfl
  rw [hlist] at h
  exact h

end Channels

/-! ### The grants of a silent seat (R161) -/

/-- A silent seat's grant at one portal ends. -/
def silenceGrant (seat : Seat) (p : Fin 4) (s : State) : State :=
  if s.holdsGrant seat p then postTo seat (.grantLost p true) (endGrant p s) else s

section Grants

variable (seat : Seat) (p : Fin 4) (s : State)

theorem silenceGrants_eq : silenceGrants seat s = forEach allPortals (silenceGrant seat) s := rfl

/-- From `s` to `u` nothing was written but edits and queues. -/
def SameButEdits (s u : State) : Prop := { u with edits := s.edits, queues := s.queues } = s

theorem SameButEdits.trans {s t u : State} (h : SameButEdits s t) (k : SameButEdits t u) :
    SameButEdits s u := by
  unfold SameButEdits at h k
  rw [← k] at h
  exact h

theorem silenceGrant_rest : SameButEdits s (silenceGrant seat p s) := by
  unfold silenceGrant
  split <;> rfl

theorem silenceGrants_rest : SameButEdits s (silenceGrants seat s) :=
  forEach_keeps (P := SameButEdits s) (f := silenceGrant seat)
    (fun p _ u hu => hu.trans (silenceGrant_rest seat p u)) s rfl

theorem silenceGrant_edit (q : Fin 4) : (silenceGrant seat p s).edit q =
    if p = q ∧ (s.edit p).holder = some seat then { s.edit p with holder := none, shadow := none }
    else s.edit q := by
  unfold silenceGrant State.holdsGrant
  by_cases hh : (s.edit p).holder = some seat
  · rw [if_pos (beq_iff_eq.mpr hh), State.edit, postTo, State.setQueue_edits, endGrant,
      State.setEdit_edits, rd_wr]
    simp [hh]
  · rw [if_neg (by simpa using hh), if_neg fun h => hh h.2]

variable {p} in
theorem silenceGrant_edit_of_ne {q : Fin 4} (h : p ≠ q) : (silenceGrant seat p s).edit q = s.edit q :=
  (silenceGrant_edit seat p s q).trans (if_neg fun hpq => h hpq.1)

theorem silenceGrant_queue (x : Seat) : (silenceGrant seat p s).queue x =
    (if x = seat ∧ (s.edit p).holder = some seat then [.grantLost p true] else []).foldl
      (fun q e => q.place e s.uptime) (s.queue x) := by
  unfold silenceGrant State.holdsGrant
  by_cases hh : (s.edit p).holder = some seat
  · rw [if_pos (beq_iff_eq.mpr hh), postTo, queue_setQueue]
    by_cases hx : seat = x
    · subst hx
      rw [if_pos rfl, if_pos ⟨rfl, hh⟩]
      rfl
    · rw [if_neg hx, if_neg fun h => hx h.1.symm]
      rfl
  · rw [if_neg (by simpa using hh), if_neg fun h => hh h.2]
    rfl

/-- Each portal whose grant the seat holds loses it with its shadow. -/
theorem silenceGrants_edit : (silenceGrants seat s).edit p =
    if (s.edit p).holder = some seat then { s.edit p with holder := none, shadow := none }
    else s.edit p := by
  refine forEach_once (f := silenceGrant seat)
    (P := fun u => u.edit p = if (s.edit p).holder = some seat then
      { s.edit p with holder := none, shadow := none } else s.edit p)
    (Q := fun u => u.edit p = s.edit p) allPortals_nodup (mem_allPortals p) (fun u hu => ?_)
    (fun q _ hq u hu => ?_) (fun q _ hq u hu => ?_) s rfl
  · rw [silenceGrant_edit, hu]
    simp only [true_and]
  · exact (silenceGrant_edit_of_ne seat u hq).trans hu
  · exact (silenceGrant_edit_of_ne seat u hq).trans hu

theorem silenceGrants_of_none (h : ∀ p, (s.edit p).holder ≠ some seat) : silenceGrants seat s = s := by
  refine forEach_keeps (P := fun u => u = s) (f := silenceGrant seat) (fun p _ u hu => ?_) s rfl
  subst hu
  exact if_neg (by simpa [State.holdsGrant] using h p)

/-- The seat is told of each grant, in ascending order of portal number (log 13). -/
theorem silenceGrants_queue (x : Seat) : (silenceGrants seat s).queue x =
    (if x = seat then (allPortals.filter fun p => (s.edit p).holder == some seat).map fun p =>
      .grantLost p true else []).foldl (fun q e => q.place e s.uptime) (s.queue x) := by
  have h := forEach_queue (seat := x) (f := silenceGrant seat)
    (told := fun p u => if x = seat ∧ (u.edit p).holder = some seat then [.grantLost p true] else [])
    allPortals_nodup
    (fun p _ u => by
      have hnow := congrArg State.now (silenceGrant_rest seat p u)
      exact hnow)
    (fun p _ u => silenceGrant_queue seat p u x)
    (fun p _ q _ hq u => by rw [silenceGrant_edit_of_ne seat u hq.symm]) s
  have hlist : (allPortals.flatMap fun p =>
      if x = seat ∧ (s.edit p).holder = some seat then [Event.grantLost p true] else []) =
      if x = seat then (allPortals.filter fun p => (s.edit p).holder == some seat).map fun p =>
        .grantLost p true else [] := by
    by_cases hx : x = seat
    · simp only [hx, true_and, if_true]
      induction allPortals with
      | nil => rfl
      | cons p rest ih => by_cases hp : (s.edit p).holder = some seat <;> simp [hp, ih]
    · simp [hx]
  rw [hlist] at h
  exact h

end Grants

end Sys2Proof.Machine
end

section
namespace Sys2Proof.Machine

/-! ### SEAT_SILENT (O12) -/

/-- The clock, the active sets, the store, the meters and the trips are none of what a silent seat gives
back. -/
def SameButGivenBack (s t : State) : Prop :=
  SameClock s t ∧ t.active = s.active ∧ t.image = s.image ∧ t.storing = s.storing ∧ SameMeters s t ∧
    SameTrips s t

theorem SameButGivenBack.trans {s t u : State} (h : SameButGivenBack s t) (k : SameButGivenBack t u) :
    SameButGivenBack s u := by
  simp_all [SameButGivenBack, SameClock, SameMeters, SameTrips]

theorem SameAround.givenBack {s t : State} (h : SameAround s t) : SameButGivenBack s t := by
  obtain ⟨hclock, ⟨hactive, -, himage, hstoring⟩, hmeters, htrips, -⟩ := h
  exact ⟨hclock, hactive, himage, hstoring, hmeters, htrips⟩

theorem SameButEdits.rest {s u : State} (h : SameButEdits s u) :
    SameButGivenBack s u ∧ SameDaylight s u ∧ u.ports = s.ports ∧ u.channels = s.channels := by
  rw [← h]
  exact ⟨⟨⟨rfl, rfl, rfl, rfl, rfl, rfl⟩, rfl, rfl, rfl, rfl, rfl⟩, ⟨rfl, ⟨rfl, rfl⟩, rfl, rfl, rfl⟩, rfl, rfl⟩

theorem postOthers_queue (seat : Seat) (e : Event) (s : State) (x : Seat) :
    (postOthers seat e s).queue x =
      (if x = seat then [] else [e]).foldl (fun q e => q.place e s.uptime) (s.queue x) := by
  cases seat <;> cases x <;> simp [postOthers, postTo, queue_setQueue, State.uptime, State.tenths]

/-- A seat port as it falls silent (R151). -/
def SeatPort.silenced (x : SeatPort) : SeatPort := { x with silent := true, deadline := none }

/-- The seat is SILENT, and the other seats are told. -/
def fallSilent (seat : Seat) (s : State) : State :=
  postOthers seat (.seatSilent seat) (s.setPort seat (s.port seat).silenced)

section Silence

variable (seat : Seat) (s : State)

theorem silence_eq : silence seat s =
    silenceGrants seat (silenceChannels seat (silenceClaims seat (fallSilent seat s))) := rfl

theorem exec_seatSilent {d : Nat} (hactive : (s.port seat).silent = false)
    (hd : (s.port seat).deadline = some d) (hpassed : d ≤ s.tenths) :
    exec (.seatSilent seat) s = done (silence seat s) := by
  have hdue : s.passed (s.port seat).deadline = true := by
    rw [hd]
    exact decide_eq_true hpassed
  have hsilence : passDeadline seat s = silence seat s := if_neg (by simp [hactive])
  change execSeatSilent seat s = _
  rw [execSeatSilent, if_pos hdue, hsilence]

/-- A silence that is told of leaves all but the seat's port and the queues. -/
theorem fallSilent_rest : SameButGivenBack s (fallSilent seat s) ∧
    (∀ p, SamePortal p s (fallSilent seat s)) ∧ (fallSilent seat s).channels = s.channels ∧
    (fallSilent seat s).ports = wr s.ports (seatIx seat) (s.port seat).silenced :=
  postOthers_keeps (P := fun u => SameButGivenBack s u ∧ (∀ p, SamePortal p s u) ∧
      u.channels = s.channels ∧ u.ports = wr s.ports (seatIx seat) (s.port seat).silenced)
    (fun _ _ _ _ h => h) seat (.seatSilent seat) (by simp [Event.kind])
    (s.setPort seat (s.port seat).silenced)
    ⟨⟨⟨rfl, rfl, rfl, rfl, rfl, rfl⟩, rfl, rfl, rfl, rfl, rfl⟩, fun p => SamePortal.refl p s, rfl, rfl⟩

theorem fallSilent_queue (x : Seat) : (fallSilent seat s).queue x =
    (if x = seat then [] else [.seatSilent seat]).foldl (fun q e => q.place e s.uptime) (s.queue x) :=
  postOthers_queue seat _ _ x

theorem fallSilent_arbiter (p : Fin 4) : (fallSilent seat s).arbiter p = s.arbiter p := by
  obtain ⟨-, hportal, -⟩ := fallSilent_rest seat s
  obtain ⟨-, -, -, harb, -⟩ := hportal p
  exact harb

theorem fallSilent_edit (p : Fin 4) : (fallSilent seat s).edit p = s.edit p := by
  obtain ⟨-, hportal, -⟩ := fallSilent_rest seat s
  obtain ⟨-, -, -, -, -, -, -, hedit⟩ := hportal p
  exact hedit

/-- Until the grants end, the edits stand. -/
theorem edit_until_grants (p : Fin 4) :
    (silenceChannels seat (silenceClaims seat (fallSilent seat s))).edit p = s.edit p := by
  obtain ⟨-, ⟨-, hclaims, -⟩, -⟩ := silenceClaims_around seat (fallSilent seat s)
  obtain ⟨-, ⟨-, hchannels, -⟩, -⟩ :=
    (silenceChannels_light seat (silenceClaims seat (fallSilent seat s))).around
  rw [State.edit, hchannels, hclaims]
  exact fallSilent_edit seat s p

/-- What the channels and the grants leave of a part whose lists the seat's claims have left. -/
theorem silence_rest : let claimless := silenceClaims seat (fallSilent seat s)
    SameButGivenBack claimless (silence seat s) ∧ SameDaylight claimless (silence seat s) ∧
      (silence seat s).ports = claimless.ports ∧
      (silence seat s).channels = (silenceChannels seat claimless).channels := by
  intro claimless
  have hlight := silenceChannels_light seat claimless
  obtain ⟨hback, ⟨hmeters, ⟨hevals, hbase⟩, hselectors, harbiters, hcounter⟩, hports, hchannels⟩ :=
    (silenceGrants_rest seat (silenceChannels seat claimless)).rest
  obtain ⟨kmeters, ⟨kevals, kbase⟩, kselectors, karbiters, kcounter⟩ := hlight.daylight
  obtain ⟨-, -, -, -, kports, -⟩ := hlight.around
  exact ⟨hlight.around.givenBack.trans hback,
    ⟨hmeters.trans kmeters, ⟨hevals.trans kevals, hbase.trans kbase⟩, hselectors.trans kselectors,
      harbiters.trans karbiters, hcounter.trans kcounter⟩, hports.trans kports, hchannels⟩

theorem silence_givenBack : SameButGivenBack s (silence seat s) := by
  obtain ⟨hfall, -⟩ := fallSilent_rest seat s
  obtain ⟨hgiven, -⟩ := silence_rest seat s
  exact hfall.trans ((silenceClaims_around seat (fallSilent seat s)).givenBack.trans hgiven)

theorem silence_ports :
    (silence seat s).ports = wr s.ports (seatIx seat) (s.port seat).silenced := by
  obtain ⟨-, -, -, hfall⟩ := fallSilent_rest seat s
  obtain ⟨-, -, -, -, hclaims, -⟩ := silenceClaims_around seat (fallSilent seat s)
  obtain ⟨-, -, hgiven, -⟩ := silence_rest seat s
  exact hgiven.trans (hclaims.trans hfall)

/-- The TIED claims of the seat leave each list (R75, R81). -/
theorem silence_portal (p : Fin 4) :
    ((silence seat s).arbiter p).claims =
        (s.arbiter p).claims.filter (fun c => !(c.seat == seat && !c.kept)) ∧
      InjectionAfter p (fun c => c.seat == seat && !c.kept) s (silence seat s) := by
  obtain ⟨-, hportal, -⟩ := fallSilent_rest seat s
  obtain ⟨-, ⟨-, ⟨hevals, -⟩, -, harbiters, -⟩, -⟩ := silence_rest seat s
  obtain ⟨hclaims, hinjection⟩ := silenceClaims_portal seat (fallSilent seat s) p
  refine ⟨?_, .of_eval (congrArg (rd · p) hevals)
    (hinjection.congr (hportal p) (SamePortal.refl p _))⟩
  rw [State.arbiter, harbiters]
  exact hclaims.trans (by rw [fallSilent_arbiter])

/-- The seat's grants end with their shadows (R161). -/
theorem silence_edit (p : Fin 4) : (silence seat s).edit p =
    if (s.edit p).holder = some seat then { s.edit p with holder := none, shadow := none }
    else s.edit p := by
  rw [silence_eq, silenceGrants_edit, edit_until_grants]

/-- Until the channels are given back, the hands and the active sets stand. -/
theorem hands_until_channels : SameHands s (silenceClaims seat (fallSilent seat s)) ∧
    (silenceClaims seat (fallSilent seat s)).active = s.active := by
  obtain ⟨⟨-, hactive, -⟩, -, hchannels, -⟩ := fallSilent_rest seat s
  obtain ⟨-, ⟨kactive, -⟩, -⟩ := silenceClaims_around seat (fallSilent seat s)
  exact ⟨(SameHands.of_channels hchannels).trans (silenceClaims_hands seat _), kactive.trans hactive⟩

/-- The seat's hand channels return to AUTO (R106). -/
theorem silence_hand {c : Fin 32} {k : Circuit} {x : Hand} (hk : s.assignment c = some k)
    (hx : (s.channel c).hand = some x) :
    ((silence seat s).channel c).hand = if x.seat = seat then none else some x := by
  obtain ⟨hhands, hactive⟩ := hands_until_channels seat s
  obtain ⟨-, -, -, hchannels⟩ := silence_rest seat s
  rw [State.channel, hchannels]
  exact silenceChannels_hand seat c _ ((assignment_of_active hactive c).trans hk) ((hhands c).trans hx)

/-- What a silence tells each seat, in the model's order (log 13). -/
theorem silence_told : ∃ follow : Fin 4 → List Event,
    (∀ p, ((s.arbiter p).tied seat = [] → follow p = []) ∧ ∀ e ∈ follow p, StageOrSource p e) ∧
    ∀ x, (silence seat s).queue x =
      ((if x = seat then [] else [Event.seatSilent seat]) ++
        (allPortals.flatMap fun p =>
          (if x = seat then
            ((s.arbiter p).tied seat).map fun c => Event.claimRemoved p c.number c.kind true
          else []) ++ follow p) ++
        (if x = seat then (List.finRange 32).filterMap (s.freedBy seat) else []) ++
        (if x = seat then (allPortals.filter fun p => (s.edit p).holder == some seat).map fun p =>
          Event.grantLost p true else [])).foldl (fun q e => q.place e s.uptime) (s.queue x) := by
  obtain ⟨hfall, -⟩ := fallSilent_rest seat s
  obtain ⟨hhands, hactive⟩ := hands_until_channels seat s
  have hclaims := silenceClaims_around seat (fallSilent seat s)
  have hchannels := (silenceChannels_light seat (silenceClaims seat (fallSilent seat s))).around
  have hup1 : (fallSilent seat s).uptime = s.uptime := uptime_of_now hfall.1.1
  have hup2 : (silenceClaims seat (fallSilent seat s)).uptime = s.uptime :=
    (uptime_of_now hclaims.1.1).trans hup1
  have hup3 : (silenceChannels seat (silenceClaims seat (fallSilent seat s))).uptime = s.uptime :=
    (uptime_of_now hchannels.1.1).trans hup2
  have hfreed : (silenceClaims seat (fallSilent seat s)).freedBy seat = s.freedBy seat :=
    funext fun c => freedBy_congr hactive (hhands c) seat
  obtain ⟨follow, hfollow, hqueue⟩ := silenceClaims_told seat (fallSilent seat s)
  simp only [fallSilent_arbiter, hup1] at hfollow hqueue
  refine ⟨follow, hfollow, fun x => ?_⟩
  rw [silence_eq, silenceGrants_queue, silenceChannels_queue, hqueue, fallSilent_queue, hup2, hup3, hfreed]
  simp only [edit_until_grants, List.foldl_append]

/-- A seat with nothing to give back is SILENT, and the others are told. -/
theorem silence_of_nothing (hclaims : ∀ p, (s.arbiter p).tied seat = [])
    (hhands : ∀ c x, (s.channel c).hand = some x → x.seat ≠ seat)
    (hgrants : ∀ p, (s.edit p).holder ≠ some seat) : silence seat s = fallSilent seat s := by
  obtain ⟨-, -, hchannels, -⟩ := fallSilent_rest seat s
  rw [silence_eq, silenceClaims_of_none, silenceChannels_of_none, silenceGrants_of_none]
  · intro p
    rw [fallSilent_edit]
    exact hgrants p
  · intro c
    refine freedBy_of_none fun x hx => hhands c x ?_
    rwa [State.channel, hchannels] at hx
  · intro p
    rw [fallSilent_arbiter]
    exact hclaims p

end Silence

/-- Settles O12: what a silence gives back and tells is said by the lemmas on `silence`. -/
theorem silenceGivesBackClaimsChannelsAndGrants :
    Obligations.SilenceGivesBackClaimsChannelsAndGrants := by
  intro seat d s hactive hd hpassed
  have hexec := exec_seatSilent seat s hactive hd hpassed
  refine ⟨?_, fun hclaims hhands hgrants => ?_⟩
  · have hports := silence_ports seat s
    obtain ⟨hclock, hsets, himage, hstoring, hmeters, htrips⟩ := silence_givenBack seat s
    obtain ⟨follow, hfollow, hqueue⟩ := silence_told seat s
    refine ⟨beginTransactions (silence seat s), hexec, ?_, fun p => ?_, fun p => ?_, fun p => ?_,
      fun c k x hk hx => ?_, ?_, ?_, ?_, ?_, ?_, ?_, fun x hx => ?_, ?_⟩
    · rw [State.port, beginTransactions_ports, hports, rd_wr_self]
      rfl
    · rw [State.arbiter, beginTransactions_arbiters]
      exact (silence_portal seat s p).1
    · exact .of_eval (beginTransactions_eval p _) (silence_portal seat s p).2
    · rw [State.edit, beginTransactions_edits]
      exact silence_edit seat s p
    · rw [State.channel, beginTransactions_channels]
      exact silence_hand seat s hk hx
    · simpa [SameClock] using hclock
    · rw [beginTransactions_active, hsets]
    · rw [beginTransactions_image, himage]
    · rw [beginTransactions_storing, hstoring]
    · exact (beginTransactions_meters _).trans hmeters
    · exact (beginTransactions_trips _).trans htrips
    · rw [State.port, beginTransactions_ports, hports, rd_wr_of_ne]
      exact fun h => hx (seatIx_inj.mp h).symm
    · intro tied removed freed lost placed
      have hfreed : freed = (List.finRange 32).filterMap (s.freedBy seat) :=
        List.filterMap_congr fun c _ => by
          unfold State.freedBy
          cases s.assignment c <;> rfl
      refine ⟨follow, fun p => (hfollow p).1, fun p => (hfollow p).2, ?_, fun x hx => ?_⟩
      · rw [beginTransactions_queue, hqueue, hfreed]
        simp [placed, removed, tied, lost, allPortals, Arbiter.tied]
      · rw [beginTransactions_queue, hqueue]
        simp [placed, hx, allPortals]
  · have hnone (p : Fin 4) : (s.arbiter p).tied seat = [] :=
      List.filter_eq_nil_iff.mpr fun c hc => by simpa using hclaims p c hc
    rw [hexec, silence_of_nothing seat s hnone hhands hgrants]
    rfl

end Sys2Proof.Machine
end

section
namespace Sys2Proof.Machine

/-! ### The completion test and the arrival of a target, by the zone's state (R89, R90) -/

theorem needsBoost_iff (b level : Nat) : needsBoost b level = true ↔ 0 < b ∧ 1000 - b < level := by
  simp [needsBoost]

/-- A ramp is complete where every DIMMED channel in AUTO is at its target. -/
theorem rampDone_iff (p : Fin 4) (z : Fin 5) (s : State) :
    rampDone p z s = true ↔ ∀ k ∈ s.dimmed p z, (s.channel k.cfg.channel).hand = none →
      (s.channel k.cfg.channel).level = (s.channel k.cfg.channel).target := by
  rw [rampDone, List.all_eq_true]
  refine forall₂_congr fun k _ => ?_
  cases (s.channel k.cfg.channel).hand <;> simp [atTarget]

section Complete

variable {p : Fin 4} {z : Fin 5} {s : State}

theorem testComplete_of_none (h : s.zone p z = none) : testComplete p z s = s := by
  rw [testComplete, h]

variable {zn : Zone} (h : s.zone p z = some zn)
include h

theorem testComplete_of_not (hd : rampDone p z s = false) : testComplete p z s = s := by
  rw [testComplete, h]
  exact if_neg (by rw [hd]; exact Bool.false_ne_true)

variable (hd : rampDone p z s = true)
include hd

theorem testComplete_of_ramping (hs : zn.state = .ramping) :
    testComplete p z s = s.setZone p z (some { zn with state := .steady }) := by
  rw [testComplete, h]
  dsimp only
  rw [if_pos hd, hs]

theorem testComplete_of_boostOffPrep (hs : zn.state = .boostOffPrep) :
    testComplete p z s = s.setZone p z (some (zn.overlapOff (overlapEnd p s))) := by
  rw [testComplete, h]
  dsimp only
  rw [if_pos hd, hs]

theorem testComplete_of_other (h1 : zn.state ≠ .ramping) (h2 : zn.state ≠ .boostOffPrep) :
    testComplete p z s = s := by
  rw [testComplete, h]
  dsimp only
  rw [if_pos hd]
  split
  · next hs => exact absurd hs h1
  · next hs => exact absurd hs h2
  · rfl

end Complete

section Arrive

variable {p : Fin 4} {z : Fin 5} {s : State} {zn : Zone} (h : s.zone p z = some zn) (target : Nat)
include h

theorem zoneArrive_of_ramping (hs : zn.state = .steady ∨ zn.state = .ramping) :
    zoneArrive p z target s = plan p z { zn with working := target, latest := none } s := by
  rw [zoneArrive, h]
  rcases hs with hs | hs <;> simp only [hs]

theorem zoneArrive_of_waiting (hs : zn.state = .boostOnWait ∨ zn.state = .overlapOn) :
    zoneArrive p z target s = s.setZone p z (some { zn with latest := some target }) := by
  rw [zoneArrive, h]
  rcases hs with hs | hs <;> simp only [hs]

theorem zoneArrive_of_boostOffPrep (hs : zn.state = .boostOffPrep) :
    zoneArrive p z target s = plan p z { zn with working := target } s := by
  rw [zoneArrive, h]
  simp only [hs]

theorem zoneArrive_of_overlapOff (hs : zn.state = .overlapOff) :
    zoneArrive p z target s =
      if needsBoost (s.boostShare p z) target then
        plan p z { zn with working := target, latest := none, overlap := none } s
      else s.setZone p z (some { zn with latest := some target }) := by
  rw [zoneArrive, h]
  simp only [hs]

theorem zoneArrive_of_held (hs : zn.state = .held) :
    zoneArrive p z target s = s.setZone p z (some { zn with working := target }) := by
  rw [zoneArrive, h]
  simp only [hs]

end Arrive

/-! ### What a zone's switched channel is told of (R91, R94 to R96) -/

theorem postSwitched_of_some {p : Fin 4} {z : Fin 5} {k : Circuit} {s : State}
    (h : (s.set p).switchedOf p z = some k) (make : Fin 32 → Event) :
    postSwitched p z make s = postAll (make k.cfg.channel) s := by
  rw [postSwitched, h]

theorem postSwitched_of_none {p : Fin 4} {z : Fin 5} {s : State}
    (h : (s.set p).switchedOf p z = none) (make : Fin 32 → Event) : postSwitched p z make s = s := by
  rw [postSwitched, h]

/-! ### The timer expiries of a zone (O45) -/

section Timers

variable {p : Fin 4} {z : Fin 5} {s : State} {zn : Zone} (h : s.zone p z = some zn) {e : Nat} (hle : e ≤ s.now)
include h hle

theorem exec_overlapOnExpiry (hs : zn.state = .overlapOn) (he : zn.overlap = some e) :
    exec (.overlapOnExpiry p z) s = done (plan p z { zn.takeLatest with overlap := none } s) := by
  change execOverlapOnExpiry p z s = _
  rw [execOverlapOnExpiry, h]
  exact if_pos ⟨hs, he ▸ due_of_le hle⟩

theorem exec_overlapOffExpiry (hs : zn.state = .overlapOff) (he : zn.overlap = some e) :
    exec (.overlapOffExpiry p z) s = done (plan p z
      { zn.takeLatest with
        overlap := none, switched := false, confirmed := false, degraded := false, confirm := none } s) := by
  change execOverlapOffExpiry p z s = _
  rw [execOverlapOffExpiry, h]
  exact if_pos ⟨hs, he ▸ due_of_le hle⟩

theorem exec_confirmTimeout (hs : zn.state ≠ .held) (he : zn.confirm = some e) :
    exec (.confirmTimeout p z) s = done (degrade p z { zn.takeLatest with confirm := none } s) := by
  change execConfirmTimeout p z s = _
  rw [execConfirmTimeout, h]
  exact if_pos ⟨hs, he ▸ due_of_le hle⟩

end Timers

/-- Settles O45: the completion test, the arrival of a target and the three expiries, state by state. -/
theorem zonesActOnCompletionTargetsAndTimers : Obligations.ZonesActOnCompletionTargetsAndTimers := by
  refine ⟨⟨fun p z zn s h => ⟨rampDone_iff p z s, testComplete_of_ramping h,
    testComplete_of_boostOffPrep h, fun hrest => ?_⟩, fun p z s h => testComplete_of_none h, ?_⟩, ?_⟩
  · cases hd : rampDone p z s with
    | false => exact testComplete_of_not h hd
    | true =>
      rcases hrest with hnot | ⟨h1, h2⟩
      · exact absurd (hnot.symm.trans hd) Bool.false_ne_true
      · exact testComplete_of_other h hd h1 h2
  · intro p z target zn s h boost
    refine ⟨zoneArrive_of_ramping h target, zoneArrive_of_waiting h target,
      zoneArrive_of_boostOffPrep h target, fun hs hb => ?_, fun hs hb => ?_, zoneArrive_of_held h target⟩
    · rw [zoneArrive_of_overlapOff h target hs, if_pos ((needsBoost_iff _ _).mpr hb)]
    · rw [zoneArrive_of_overlapOff h target hs, if_neg ((needsBoost_iff _ _).not.mpr hb)]
  · intro p z zn e s h hle taken
    refine ⟨exec_overlapOnExpiry h hle, exec_overlapOffExpiry h hle, fun hs he =>
      ⟨fun k hk => ?_, fun hk => ?_⟩⟩
    · rw [exec_confirmTimeout h hle hs he, degrade, postSwitched_of_some hk]
      rfl
    · rw [exec_confirmTimeout h hle hs he, degrade, postSwitched_of_none hk]
      rfl

end Sys2Proof.Machine
end

section
namespace Sys2Proof.Machine

/-! ### A confirmation and a loss of boost, by the zone's state (O46) -/

/-- A zone whose boost is confirmed (R91). -/
def Zone.confirmedOn (zn : Zone) : Zone := { zn with confirmed := true, confirm := none, degraded := false }

/-- A zone that waits out its overlap once the boost is confirmed (R91, R95). -/
def Zone.overlapOn (zn : Zone) (expiry : Nat) : Zone :=
  { zn.confirmedOn with state := .overlapOn, overlap := some expiry }

section Boost

variable {p : Fin 4} {z : Fin 5} {s : State} {zn : Zone} (h : s.zone p z = some zn)
include h

theorem confirmation_unwanted (hs : zn.switched = false ∨ zn.state = .held) : confirmation p z s = s := by
  rw [confirmation, h]
  exact if_pos hs

theorem confirmation_in_time (hsw : zn.switched = true) (hh : zn.state ≠ .held) (hd : zn.degraded = false) :
    confirmation p z s = s.setZone p z (some
      (if zn.state = .boostOnWait then zn.overlapOn (overlapEnd p s) else zn.confirmedOn)) := by
  rw [confirmation, h]
  dsimp only
  rw [if_neg (by simp [hsw, hh]), if_neg (by simp [hd])]
  split <;> rfl

theorem confirmation_late (hsw : zn.switched = true) (hh : zn.state ≠ .held) (hd : zn.degraded = true) :
    let told := postSwitched p z (fun c => .channelOk p c .boostConfirmed) s
    confirmation p z s =
      if needsBoost (s.boostShare p z) zn.working then
        holdDimmed p z (told.setZone p z (some (zn.overlapOn (overlapEnd p s))))
      else told.setZone p z (some zn.confirmedOn) := by
  rw [confirmation, h]
  dsimp only
  rw [if_neg (by simp [hsw, hh]), if_pos hd]
  rfl

theorem boostLost_unconfirmed (hc : zn.confirmed = false) : boostLost p z s = s := by
  rw [boostLost, h]
  exact if_pos hc

variable (hc : zn.confirmed = true)
include hc

theorem boostLost_of_ramping (hsw : zn.switched = true) (hs : zn.state = .steady ∨ zn.state = .ramping) :
    boostLost p z s = degrade p z { zn with confirmed := false } s := by
  rw [boostLost, h]
  dsimp only
  rw [if_neg (by simp [hc])]
  rcases hs with hs | hs <;> simp only [hs, if_pos hsw]

theorem boostLost_of_overlapOn (hs : zn.state = .overlapOn) :
    boostLost p z s =
      degrade p z { Zone.takeLatest { zn with confirmed := false } with overlap := none } s := by
  rw [boostLost, h]
  dsimp only
  rw [if_neg (by simp [hc])]
  simp only [hs]

theorem boostLost_of_leaving (hs : zn.state = .boostOffPrep ∨ zn.state = .overlapOff) :
    boostLost p z s = s.setZone p z (some { zn with confirmed := false }) := by
  rw [boostLost, h]
  dsimp only
  rw [if_neg (by simp [hc])]
  rcases hs with hs | hs <;> simp only [hs]

end Boost

/-- Settles O46: each case of a confirmation and of a loss of boost. -/
theorem confirmationAndLossOfBoostActByTheZoneState :
    Obligations.ConfirmationAndLossOfBoostActByTheZoneState := by
  intro p z zn k s h hk boost confirmed overlapped ok fault
  have told : postSwitched p z (fun c => .channelOk p c .boostConfirmed) s = ok :=
    postSwitched_of_some hk _
  have faulted : postSwitched p z (fun c => .channelFault p c .boostUnconfirmed) s = fault :=
    postSwitched_of_some hk _
  refine ⟨confirmation_unwanted h, fun hsw hd hs => ?_, fun hsw hd hh hs => ?_, fun hsw hd hh hb => ?_,
    fun hsw hd hh hb => ?_, boostLost_unconfirmed h, fun hc hsw hs => ?_, fun hc hs => ?_,
    boostLost_of_leaving h⟩
  · rw [confirmation_in_time h hsw (by simp [hs]) hd, if_pos hs]
    rfl
  · rw [confirmation_in_time h hsw hh hd, if_neg hs]
    rfl
  · rw [confirmation_late h hsw hh hd, told, if_pos ((needsBoost_iff _ _).mpr hb)]
    rfl
  · rw [confirmation_late h hsw hh hd, told, if_neg ((needsBoost_iff _ _).not.mpr hb)]
    rfl
  · rw [boostLost_of_ramping h hc hsw hs, degrade, faulted]
  · rw [boostLost_of_overlapOn h hc hs, degrade, faulted]
    rfl

end Sys2Proof.Machine
end

section
namespace Sys2Proof.Machine

/-! ### What a plan leaves beside its zone and its zone's channels (R87, R88) -/

theorem zone_setZone (s : State) (p : Fin 4) (z : Fin 5) (x : Option Zone) (q : Fin 4) (w : Fin 5) :
    (s.setZone p z x).zone q w = if q = p ∧ w = z then x else s.zone q w := by
  rw [State.zone, State.setZone_zones]
  by_cases hq : q = p
  · subst hq
    by_cases hw : w = z
    · simp [hw]
    · simp [hw, rd_wr_of_ne _ _ (Ne.symm hw)]
  · simp [hq, rd_wr_of_ne _ _ (Ne.symm hq)]

theorem channel_setChannel (s : State) (c : Fin 32) (x : Channel) (d : Fin 32) :
    (s.setChannel c x).channel d = if c = d then x else s.channel d := rd_wr _ _ _ _

/-- A property that channels and lines do not enter is kept by commands. -/
theorem command_keeps_dark {P : State → Prop} (hP : ∀ c l u, P { u with channels := c, lines := l } = P u)
    (k : Circuit) (level : Nat) (u : State) (hu : P u) : P (command k level u) := by
  rw [← command_rest k level u, hP] at hu
  exact hu

/-- A plan writes its zone, channels and lines (R88). -/
theorem plan_rest (p : Fin 4) (z : Fin 5) (s : State) : KeptByPlan p z (fun _ => True)
    (fun u => SameButZone p z s u ∧ u.queues = s.queues) where
  scope := fun _ _ _ _ => trivial
  zone := fun x u hu => by
    obtain ⟨⟨hclock, hsets, hday, htrips, hports, hzones⟩, hqueues⟩ := hu
    refine ⟨⟨hclock, hsets, hday, htrips, hports, fun q w hne => ?_⟩, hqueues⟩
    rw [zone_setZone, if_neg hne]
    exact hzones q w hne
  aim := fun _ _ _ _ _ _ hu => hu
  give := giveSwitched_of_writes (C := fun _ => True) (fun _ _ _ _ => trivial) (fun _ _ _ _ _ hu => hu)
    fun k level u _ _ _ _ _ hu => command_keeps_dark
      (P := fun u => SameButZone p z s u ∧ u.queues = s.queues) (fun _ _ _ => rfl) k level u hu

theorem SameButZone.refl (p : Fin 4) (z : Fin 5) (s : State) : SameButZone p z s s :=
  ⟨⟨rfl, rfl, rfl, rfl, rfl, rfl⟩, ⟨rfl, rfl, rfl, rfl⟩, ⟨rfl, ⟨rfl, rfl⟩, rfl, rfl, rfl⟩, rfl, rfl,
    fun _ _ _ => rfl⟩

/-! ### The targets that a plan gives (R87, R99) -/

/-- From `s` to `t` the DIMMED channels of a zone take the level `aim` as their target, or each its own
commanded level, and the switched channel takes its target and follows it. -/
def TargetsGiven (p : Fin 4) (z : Fin 5) (aim : Option Nat) (on : Bool) (s t : State) : Prop :=
  (∀ k ∈ s.dimmed p z, s.only k → (t.channel k.cfg.channel).target =
    match aim with
    | some level => some (k.cfg.raised level)
    | none => (s.channel k.cfg.channel).level.map k.cfg.raised) ∧
  (∀ k, (s.set p).switchedOf p z = some k → s.only k →
    (t.channel k.cfg.channel).target = some (if on then 1000 else 0) ∧
    ((s.channel k.cfg.channel).hand = none → s.tripped p = false →
      (t.channel k.cfg.channel).level = some (if on then 1000 else 0)))

theorem driveSwitched_target (k : Circuit) (s : State) (c : Fin 32) :
    ((driveSwitched k s).channel c).target = (s.channel c).target := by
  rw [State.channel, driveSwitched_channels]
  split
  · rw [rd_wr]
    split
    · next hc => rw [← hc]
    · rfl
  · rfl

theorem holdTarget_channel (k : Circuit) (s : State) (c : Fin 32) :
    (holdTarget k s).channel c = if k.cfg.channel = c then
      { s.channel k.cfg.channel with target := (s.channel k.cfg.channel).level.map k.cfg.raised }
    else s.channel c := channel_setChannel _ _ _ _

section Given

variable {p : Fin 4} {z : Fin 5} {s : State}

/-- A held DIMMED channel has its own commanded level as its target (R87). -/
theorem holdDimmed_target {k : Circuit} (hk : k ∈ s.dimmed p z) (ho : s.only k) :
    ((holdDimmed p z s).channel k.cfg.channel).target =
      (s.channel k.cfg.channel).level.map k.cfg.raised := by
  have hne (j : Circuit) (hj : j ∈ s.dimmed p z) (h : j ≠ k) : j.cfg.channel ≠ k.cfg.channel :=
    fun hc => h (ho.2 p j (mem_of_dimmed hj) hc)
  refine forEach_once (f := holdTarget)
    (P := fun u => (u.channel k.cfg.channel).target = (s.channel k.cfg.channel).level.map k.cfg.raised)
    (Q := fun u => u.channel k.cfg.channel = s.channel k.cfg.channel)
    ((circuits_nodup _ p).filter _) hk (fun u hu => ?_) (fun j hj hjk u hu => ?_)
    (fun j hj hjk u hu => ?_) s rfl
  · rw [holdTarget_channel, if_pos rfl, hu]
  · rw [holdTarget_channel, if_neg (hne j hj hjk)]
    exact hu
  · rw [holdTarget_channel, if_neg (hne j hj hjk)]
    exact hu

/-- Once the DIMMED channels have their targets, the switched channel is given its own. -/
theorem giveSwitched_gives {u : State} {aim : Option Nat} (hu : SameButZone p z s u) (hh : SameHands s u)
    (hdim : ∀ k ∈ s.dimmed p z, s.only k → (u.channel k.cfg.channel).target =
      match aim with
      | some level => some (k.cfg.raised level)
      | none => (s.channel k.cfg.channel).level.map k.cfg.raised) (on : Bool) :
    TargetsGiven p z aim on s (giveSwitched p z on u) := by
  obtain ⟨-, ⟨hactive, -⟩, -, htrips, -⟩ := hu
  have hset : u.set p = s.set p := by rw [State.set, hactive]
  refine ⟨fun k hk ho => ?_, fun k hk ho => ?_⟩
  · obtain ⟨-, -, hks⟩ := mem_dimmed.mp hk
    rw [giveSwitched_channel_of_ne fun j hj hc => ?_]
    · exact hdim k hk ho
    · rw [hset] at hj
      obtain ⟨hjc, -, hjs⟩ := switchedOf_spec hj
      obtain rfl := ho.2 p j hjc hc
      exact Bool.false_ne_true (hks.symm.trans hjs)
  · obtain ⟨hkc, -, hks⟩ := switchedOf_spec hk
    have hgive : giveSwitched p z on u = driveSwitched k (giveTarget k (if on then 1000 else 0) u) := by
      rw [giveSwitched, hset, hk]
    have htarget : ((giveSwitched p z on u).channel k.cfg.channel).target =
        some (if on then 1000 else 0) := by
      rw [hgive, driveSwitched_target, giveTarget_channel, raised_of_switched hks]
    refine ⟨htarget, fun hn ht => ?_⟩
    have hut : u.tripped k.portal = false := by
      rw [circuit_portal hkc, State.tripped, State.tripUnit, htrips]
      exact ht
    rw [← htarget, hgive]
    exact (driveSwitched_at_target hks hut ((hh _).trans hn) _).2

/-! ### The three ways into a state of R88 -/

variable (p z s) in
theorem planHands : KeptByPlan p z (fun _ => True) (SameHands s) := (SameHands.output p s).toPlan z

/-- A zone that ramps, or has arrived at once. -/
def Zone.ramps (zn : Zone) (arrived : Bool) : Zone :=
  { zn with state := if arrived then .steady else .ramping, overlap := none }

/-- A zone that prepares to switch its boost off, or begins its overlap at once. -/
def Zone.preparesOff (zn : Zone) (arrived : Bool) (expiry : Nat) : Zone :=
  if arrived then zn.overlapOff expiry else { zn with state := .boostOffPrep, overlap := none }

/-- A zone that waits for its boost to be confirmed. -/
def Zone.waits (zn : Zone) (now : Nat) : Zone :=
  { zn with state := .boostOnWait, overlap := none, confirm := some (now + confirmMs) }

variable (zn : Zone) (level : Nat) (on : Bool)

/-- A zone that is steered and then written makes its completion test at once. -/
theorem testComplete_after_steer :
    (testComplete p z ((steer p z level s).setZone p z (some zn))).zone p z = some (
      if rampDone p z (steer p z level s) then
        match zn.state with
        | .ramping => { zn with state := .steady }
        | .boostOffPrep => zn.overlapOff (overlapEnd p s)
        | _ => zn
      else zn) := by
  have hz : ((steer p z level s).setZone p z (some zn)).zone p z = some zn := by
    rw [zone_setZone, if_pos ⟨rfl, rfl⟩]
  have he : overlapEnd p ((steer p z level s).setZone p z (some zn)) = overlapEnd p s := by
    have hs := (plan_rest p z s).steer level s ⟨.refl p z s, rfl⟩
    obtain ⟨⟨⟨hnow, -⟩, ⟨hactive, -⟩, -⟩, -⟩ := hs
    rw [overlapEnd, overlapEnd, State.setZone_now, hnow, State.record, State.record, State.setZone_active,
      hactive]
  rw [testComplete_zone hz, he]
  rfl

theorem enterRamping_gives :
    (giveSwitched p z on (enterRamping p z zn level s)).zone p z =
        some (zn.ramps (rampDone p z (steer p z level s))) ∧
      TargetsGiven p z (some level) on s (giveSwitched p z on (enterRamping p z zn level s)) := by
  refine ⟨?_, giveSwitched_gives ((plan_rest p z s).enterRamping zn level s ⟨.refl p z s, rfl⟩).1
    ((planHands p z s).enterRamping zn level s fun _ => rfl) (fun k hk ho => ?_) on⟩
  · rw [State.zone, giveSwitched_zones]
    refine (testComplete_after_steer _ level).trans ?_
    cases rampDone p z (steer p z level s) <;> rfl
  · rw [State.channel, enterRamping, testComplete_channels]
    exact steer_target hk ho level

theorem enterBoostOffPrep_gives :
    (giveSwitched p z on (enterBoostOffPrep p z zn level s)).zone p z =
        some (zn.preparesOff (rampDone p z (steer p z level s)) (overlapEnd p s)) ∧
      TargetsGiven p z (some level) on s (giveSwitched p z on (enterBoostOffPrep p z zn level s)) := by
  refine ⟨?_, giveSwitched_gives ((plan_rest p z s).enterBoostOffPrep zn level s ⟨.refl p z s, rfl⟩).1
    ((planHands p z s).enterBoostOffPrep zn level s fun _ => rfl) (fun k hk ho => ?_) on⟩
  · rw [State.zone, giveSwitched_zones]
    refine (testComplete_after_steer _ level).trans ?_
    cases rampDone p z (steer p z level s) <;> rfl
  · rw [State.channel, enterBoostOffPrep, testComplete_channels]
    exact steer_target hk ho level

theorem enterBoostOnWait_gives :
    (giveSwitched p z on (enterBoostOnWait p z zn s)).zone p z = some (zn.waits s.now) ∧
      TargetsGiven p z none on s (giveSwitched p z on (enterBoostOnWait p z zn s)) := by
  refine ⟨?_, giveSwitched_gives ((plan_rest p z s).enterBoostOnWait zn s ⟨.refl p z s, rfl⟩).1
    ((planHands p z s).enterBoostOnWait zn s fun _ => rfl) (fun k hk ho => ?_) on⟩
  · rw [State.zone, giveSwitched_zones]
    exact (zone_setZone _ _ _ _ _ _).trans (if_pos ⟨rfl, rfl⟩)
  · exact holdDimmed_target hk ho

end Given

/-! ### The rows of R88 (O44) -/

/-- A zone without a boost share forgets its boost as it plans. -/
def Zone.unshared (zn : Zone) : Zone :=
  { zn with switched := false, confirmed := false, confirm := none, degraded := false }

section Rows

variable {p : Fin 4} {z : Fin 5} {zn : Zone} {s : State}

theorem plan_unshared (hb : s.boostShare p z = 0) : plan p z zn s =
    giveSwitched p z false
      (enterRamping p z zn.unshared (levelWithout (s.boostShare p z) zn.working) s) :=
  if_pos hb

section Unboosted

variable (hb : 0 < s.boostShare p z) (hn : needsBoost (s.boostShare p z) zn.working = false)
include hb hn

theorem plan_unboosted_off (hsw : zn.switched = false) : plan p z zn s =
    giveSwitched p z false (enterRamping p z zn (levelWithout (s.boostShare p z) zn.working) s) := by
  unfold plan
  dsimp only
  rw [if_neg hb.ne', if_neg (by simp [hn]), if_neg (by simp [hsw])]

theorem plan_unboosted_on (hsw : zn.switched = true) : plan p z zn s =
    giveSwitched p z true (enterBoostOffPrep p z zn (levelWithout (s.boostShare p z) zn.working) s) := by
  unfold plan
  dsimp only
  rw [if_neg hb.ne', if_neg (by simp [hn]), if_pos hsw]

end Unboosted

section Boosted

variable (hn : needsBoost (s.boostShare p z) zn.working = true)
include hn

theorem share_of_needsBoost : ¬ s.boostShare p z = 0 := fun hb => by
  simp [needsBoost, hb] at hn

theorem plan_boosted_off (hsw : zn.switched = false) : plan p z zn s =
    giveSwitched p z true (enterBoostOnWait p z { zn with switched := true, confirmed := false } s) := by
  unfold plan
  dsimp only
  rw [if_neg (share_of_needsBoost hn), if_pos hn, if_pos hsw]

variable (hsw : zn.switched = true)
include hsw

theorem plan_boosted_confirmed (hc : zn.confirmed = true) : plan p z zn s =
    giveSwitched p z true (enterRamping p z zn (levelWith (s.boostShare p z) zn.working) s) := by
  unfold plan
  dsimp only
  rw [if_neg (share_of_needsBoost hn), if_pos hn, if_neg (by simp [hsw]), if_pos hc]

theorem plan_boosted_waiting (hc : zn.confirmed = false) (hd : zn.degraded = false) : plan p z zn s =
    giveSwitched p z true (enterBoostOnWait p z zn s) := by
  unfold plan
  dsimp only
  rw [if_neg (share_of_needsBoost hn), if_pos hn, if_neg (by simp [hsw]), if_neg (by simp [hc]),
    if_neg (by simp [hd])]

theorem plan_boosted_degraded (hc : zn.confirmed = false) (hd : zn.degraded = true) : plan p z zn s =
    giveSwitched p z true (enterRamping p z zn 1000 s) := by
  unfold plan
  dsimp only
  rw [if_neg (share_of_needsBoost hn), if_pos hn, if_neg (by simp [hsw]), if_neg (by simp [hc]), if_pos hd]

end Boosted

end Rows

/-- Settles O44: each row of the table enters one of the three ways. -/
theorem planEntersTheStateOfItsRow : Obligations.PlanEntersTheStateOfItsRow := by
  intro p z zn s b boost without withBoost t there ramping waiting planned
  obtain ⟨hrest, hqueues⟩ := (plan_rest p z s).plan zn s ⟨.refl p z s, rfl⟩
  have hboost : boost ↔ needsBoost b zn.working = true := (needsBoost_iff _ _).symm
  have hunboost (h : ¬ boost) : needsBoost b zn.working = false := Bool.eq_false_iff.mpr (hboost.not.mp h)
  have row {u : State} (ht : plan p z zn s = u) {x : Zone} {aim : Option Nat} {on : Bool}
      (hu : u.zone p z = some x ∧ TargetsGiven p z aim on s u) : planned x aim on := by
    subst ht
    exact hu
  refine ⟨fun hb => ?_, fun hb hn hsw => ?_, fun hb hn hsw => ?_, fun hn hsw => ?_, fun hn hsw hc => ?_,
    fun hn hsw hc hd => ?_, fun hn hsw hc hd => ?_, hrest, hqueues⟩
  · exact row (plan_unshared hb) (enterRamping_gives _ _ _)
  · exact row (plan_unboosted_off hb (hunboost hn) hsw) (enterRamping_gives _ _ _)
  · exact row (plan_unboosted_on hb (hunboost hn) hsw) (enterBoostOffPrep_gives _ _ _)
  · exact row (plan_boosted_off (hboost.mp hn) hsw) (enterBoostOnWait_gives _ _)
  · exact row (plan_boosted_confirmed (hboost.mp hn) hsw hc) (enterRamping_gives _ _ _)
  · exact row (plan_boosted_waiting (hboost.mp hn) hsw hc hd) (enterBoostOnWait_gives _ _)
  · exact row (plan_boosted_degraded (hboost.mp hn) hsw hc hd) (enterRamping_gives _ _ _)

end Sys2Proof.Machine
end

section
namespace Sys2Proof.Machine

/-! ### The completion test of a channel's zone (R90) -/

theorem setZone_self (s : State) (p : Fin 4) (z : Fin 5) : s.setZone p z (s.zone p z) = s := by
  simp only [State.setZone, State.zone, wr_rd_self]

/-- The completion test writes its zone, if anything. -/
theorem testComplete_writes (p : Fin 4) (z : Fin 5) (s : State) :
    ∃ x, testComplete p z s = s.setZone p z x := by
  unfold testComplete
  split
  · exact ⟨_, (setZone_self s p z).symm⟩
  · split
    · split
      · exact ⟨_, rfl⟩
      · exact ⟨_, rfl⟩
      · exact ⟨_, (setZone_self s p z).symm⟩
    · exact ⟨_, (setZone_self s p z).symm⟩

theorem testZone_writes (k : Circuit) (s : State) :
    { testZone k s with zones := s.zones } = s ∧
      ∀ p z, ¬ (p = k.portal ∧ k.cfg.zone = some z) → (testZone k s).zone p z = s.zone p z := by
  unfold testZone
  split
  · exact ⟨rfl, fun _ _ _ => rfl⟩
  · next z hz =>
    obtain ⟨x, hx⟩ := testComplete_writes k.portal z s
    rw [hx]
    refine ⟨rfl, fun p w hne => ?_⟩
    rw [zone_setZone, if_neg fun hpw => hne ⟨hpw.1, by rw [hz, hpw.2]⟩]

theorem testZone_channels (k : Circuit) (s : State) : (testZone k s).channels = s.channels := by
  have h := congrArg State.channels (testZone_writes k s).1
  exact h

/-! ### TAKE_CHANNEL (O47) -/

section Checks

variable {seat : Seat} {h : Header} {b : List Byte} {s : State} (hp : (s.port seat).phase = .header)
  (hb : b.length = 4)
include hp hb

theorem execTakeChannel_run : exec (.takeChannel seat h b) s =
    done (channelCommand seat h b (takeChannelCommand seat) s) := by
  change execTakeChannel seat h b s = _
  rw [execTakeChannel, withRecord_run hp hb]

theorem execReleaseChannel_run : exec (.releaseChannel seat h b) s =
    done (channelCommand seat h b (releaseChannelCommand seat) s) := by
  change execReleaseChannel seat h b s = _
  rw [execReleaseChannel, withRecord_run hp hb]

end Checks

section Command

variable {seat : Seat} {h : Header} {b : List Byte} {s : State} (run : Circuit → State → State)

theorem channelCommand_miscounted (hr : h.records ≠ 1) :
    channelCommand seat h b run s = denied seat .badValue 0 s := by
  rw [channelCommand, if_pos hr, refuse_eq_denied]

theorem channelCommand_unassigned (hr : h.records = 1) (hn : s.requested (byteAt b 0) = none) :
    channelCommand seat h b run s = denied seat .badValue 1 s := by
  rw [channelCommand, if_neg (not_not.mpr hr), hn]
  rfl

theorem channelCommand_runs {k : Circuit} (hr : h.records = 1)
    (hk : s.requested (byteAt b 0) = some k) : channelCommand seat h b run s = run k s := by
  rw [channelCommand, if_neg (not_not.mpr hr), hk]

end Command

section Take

variable {seat : Seat} {k : Circuit} {s : State}

theorem takeChannelCommand_of_hand {x : Hand} (hx : (s.channel k.cfg.channel).hand = some x) :
    takeChannelCommand seat k s =
      if x.seat = seat then granted seat (s.levelOf k) false s
      else denied seat .held (seatIx x.seat).val s := by
  rw [takeChannelCommand, hx]
  simp only [accept_eq_granted, refuse_eq_denied]
  rfl

theorem takeChannelCommand_of_auto (hx : (s.channel k.cfg.channel).hand = none) :
    takeChannelCommand seat k s = granted seat (s.levelOf k) false (enterHand seat k s) := by
  rw [takeChannelCommand, hx]
  exact accept_eq_granted _ _ _ _

/-- A channel enters HAND, and its zone is tested. -/
theorem enterHand_writes (seat : Seat) (k : Circuit) (s : State) :
    (enterHand seat k s).channels = wr s.channels k.cfg.channel
        { s.channel k.cfg.channel with hand := some { seat := seat, level := s.levelOf k } } ∧
      (∀ p z, ¬ (p = k.portal ∧ k.cfg.zone = some z) → (enterHand seat k s).zone p z = s.zone p z) ∧
      { enterHand seat k s with zones := s.zones, channels := s.channels } = s := by
  obtain ⟨hrest, hzones⟩ := testZone_writes k (s.setChannel k.cfg.channel
    { s.channel k.cfg.channel with hand := some { seat := seat, level := s.levelOf k } })
  exact ⟨testZone_channels _ _, hzones, congrArg (fun u : State => { u with channels := s.channels }) hrest⟩

end Take

/-! ### RELEASE_CHANNEL (O47) -/

/-- A SWITCHED channel in AUTO is commanded at its target, unless its portal is TRIPPED (R99): its line
takes the level if it changes and the channel is on the line. -/
theorem driveSwitched_of_auto {k : Circuit} {u : State} (hh : (u.channel k.cfg.channel).hand = none) :
    let c := k.cfg.channel
    let aim := (u.channel c).target.getD 0
    let driven := u.setChannel c { u.channel c with level := some aim }
    driveSwitched k u =
      if k.cfg.switched = false ∨ u.tripped k.portal = true ∨ (u.channel c).level = some aim then u
      else if (u.lampLine k.portal).carries k.addr c then
        driven.setLine k.portal ((u.lampLine k.portal).enter k.addr aim c)
      else driven := by
  intro c aim driven
  cases hs : k.cfg.switched with
  | false => rw [driveSwitched_of_dimmed hs, if_pos (Or.inl rfl)]
  | true =>
    cases ht : u.tripped k.portal with
    | true => rw [driveSwitched_of_tripped ht, if_pos (Or.inr (Or.inl rfl))]
    | false =>
      have hdrive : driveSwitched k u = command k aim u := if_pos ⟨hs, hh, ht⟩
      rw [hdrive, command, raised_of_switched hs]
      by_cases hl : (u.channel c).level = some aim
      · rw [if_pos hl, if_pos (Or.inr (Or.inr hl))]
      · rw [if_neg hl, if_neg (by simp [hl])]
        rfl

/-- A channel that is freed; a DIMMED one whose zone holds its channels takes its commanded level as its
target (R87, R102). -/
def State.freed (s : State) (k : Circuit) : Channel :=
  let free : Channel := { s.channel k.cfg.channel with hand := none }
  if k.cfg.switched = false ∧ (k.cfg.zone.bind fun z => s.zone k.portal z).any Zone.holding = true then
    { free with target := free.level.map k.cfg.raised }
  else free

/-- The state in which a channel returned to AUTO leaves the part before its zone is tested. -/
def State.freedDriven (s : State) (k : Circuit) : State :=
  driveSwitched k (s.setChannel k.cfg.channel (s.freed k))

theorem setChannel_setChannel (s : State) (c : Fin 32) (x y : Channel) :
    (s.setChannel c x).setChannel c y = s.setChannel c y := by
  simp only [State.setChannel, wr_wr]

section Release

variable (k : Circuit) (s : State)

theorem freed_hand : (s.freed k).hand = none := by
  unfold State.freed
  dsimp only
  split <;> rfl

theorem freed_level : (s.freed k).level = (s.channel k.cfg.channel).level := by
  unfold State.freed
  dsimp only
  split <;> rfl

variable {k} in
theorem freed_of_switched (h : k.cfg.switched = true) :
    s.freed k = { s.channel k.cfg.channel with hand := none } :=
  if_neg fun hf => Bool.false_ne_true (hf.1.symm.trans h)

theorem returnToAuto_eq : returnToAuto k s = testZone k (s.freedDriven k) := by
  unfold returnToAuto testZone State.freedDriven State.freed
  dsimp only
  cases hz : k.cfg.zone with
  | none => simp
  | some z =>
    dsimp only
    rw [Option.bind_some]
    by_cases hc : k.cfg.switched = false ∧ (s.zone k.portal z).any Zone.holding = true
    · rw [if_pos hc, if_pos (by simpa using hc)]
      unfold holdTarget
      rw [setChannel_setChannel, channel_setChannel, if_pos rfl]
    · rw [if_neg hc, if_neg (by simpa using hc)]

theorem freedDriven_channels : (s.freedDriven k).channels = wr s.channels k.cfg.channel
    (if k.cfg.switched = true ∧ s.tripped k.portal = false then
      { s.freed k with level := some ((s.freed k).target.getD 0) }
    else s.freed k) := by
  have hread : (s.setChannel k.cfg.channel (s.freed k)).channel k.cfg.channel = s.freed k := rd_wr_self _ _ _
  rw [State.freedDriven, driveSwitched_channels, hread, freed_hand]
  by_cases hc : k.cfg.switched = true ∧ s.tripped k.portal = false
  · rw [if_pos ⟨hc.1, rfl, hc.2⟩, if_pos hc, State.setChannel_channels, wr_wr, raised_of_switched hc.1]
  · rw [if_neg fun h => hc ⟨h.1, h.2.2⟩, if_neg hc, State.setChannel_channels]

theorem freedDriven_zones : (s.freedDriven k).zones = s.zones := by
  unfold State.freedDriven driveSwitched
  dsimp only
  split
  · exact command_zones _ _ _
  · rfl

theorem returnToAuto_channels : (returnToAuto k s).channels = (s.freedDriven k).channels := by
  rw [returnToAuto_eq, testZone_channels]

theorem returnToAuto_zone_of_ne {p : Fin 4} {z : Fin 5} (h : ¬ (p = k.portal ∧ k.cfg.zone = some z)) :
    (returnToAuto k s).zone p z = s.zone p z := by
  rw [returnToAuto_eq, (testZone_writes k _).2 p z h, State.zone, freedDriven_zones]

end Release

theorem postTo_queue (seat : Seat) (e : Event) (s : State) (y : Seat) : (postTo seat e s).queue y =
    if seat = y then (s.queue seat).place e s.uptime else s.queue y := queue_setQueue _ _ _ _

/-- A channel that returns to AUTO from HAND, and what its seat is told. -/
theorem releaseHand_spec (seat : Seat) (cause : ReleaseCause) (k : Circuit) (s : State) :
    let t := releaseHand k seat cause s
    (t.channel k.cfg.channel).hand = none ∧
      (k.cfg.switched = false → (t.channel k.cfg.channel).level = (s.channel k.cfg.channel).level) ∧
      (k.cfg.switched = true → s.tripped k.portal = true →
        (t.channel k.cfg.channel).level = (s.channel k.cfg.channel).level) ∧
      (k.cfg.switched = true → s.tripped k.portal = false →
        (t.channel k.cfg.channel).level = some ((s.channel k.cfg.channel).target.getD 0) ∧
        (t.channel k.cfg.channel).target = (s.channel k.cfg.channel).target) ∧
      (∀ d, d ≠ k.cfg.channel → t.channel d = s.channel d) ∧
      (∀ p z, ¬ (p = k.portal ∧ k.cfg.zone = some z) → t.zone p z = s.zone p z) ∧
      t.queue seat = (s.queue seat).place (.handReleased k.portal k.cfg.channel cause) s.uptime ∧
      (∀ y, y ≠ seat → t.queue y = s.queue y) ∧
      SameClock s t ∧ SameSets s t ∧ SameDaylight s t ∧ SameTrips s t ∧ t.ports = s.ports := by
  intro t
  have hchannels : t.channels = (s.freedDriven k).channels := returnToAuto_channels k s
  have hown : t.channel k.cfg.channel =
      if k.cfg.switched = true ∧ s.tripped k.portal = false then
        { s.freed k with level := some ((s.freed k).target.getD 0) }
      else s.freed k := by
    rw [State.channel, hchannels, freedDriven_channels, rd_wr_self]
  have hlight := returnToAuto_light k s
  obtain ⟨hclock, hsets, -, htrips, hports, -⟩ := hlight.around
  obtain ⟨hnow, hqueues⟩ := returnToAuto_quiet k s
  have hqueue (y : Seat) : (returnToAuto k s).queue y = s.queue y := by rw [State.queue, hqueues]
  have hplace (y : Seat) : t.queue y = if seat = y then
      (s.queue seat).place (.handReleased k.portal k.cfg.channel cause) s.uptime else s.queue y := by
    have h := postTo_queue seat (.handReleased k.portal k.cfg.channel cause) (returnToAuto k s) y
    rw [hqueue, hqueue, uptime_of_now hnow] at h
    exact h
  refine ⟨?_, fun hs => ?_, fun hs ht => ?_, fun hs ht => ⟨?_, ?_⟩, fun d hd => ?_,
    fun p z hne => returnToAuto_zone_of_ne k s hne, ?_, fun y hy => ?_, hclock, hsets, hlight.daylight,
    htrips, hports⟩
  · rw [hown]
    split <;> exact freed_hand k s
  · rw [hown, if_neg (by simp [hs]), freed_level]
  · rw [hown, if_neg (by simp [ht]), freed_level]
  · rw [hown, if_pos ⟨hs, ht⟩, freed_of_switched s hs]
  · rw [hown, if_pos ⟨hs, ht⟩, freed_of_switched s hs]
  · rw [State.channel, hchannels, freedDriven_channels, rd_wr_of_ne _ _ hd.symm]
  · rw [hplace, if_pos rfl]
  · rw [hplace, if_neg hy.symm]

section Commands

variable {seat : Seat} {k : Circuit} {s : State}

theorem releaseChannelCommand_of_auto (hx : (s.channel k.cfg.channel).hand = none) :
    releaseChannelCommand seat k s = denied seat .notHolder 0 s := by
  rw [releaseChannelCommand, inHand, hx]
  rfl

theorem releaseChannelCommand_of_other {x : Hand} (hx : (s.channel k.cfg.channel).hand = some x)
    (hne : x.seat ≠ seat) :
    releaseChannelCommand seat k s = denied seat .held (seatIx x.seat).val s := by
  rw [releaseChannelCommand, inHand, hx]
  exact if_neg hne

theorem releaseChannelCommand_of_own {x : Hand} (hx : (s.channel k.cfg.channel).hand = some x)
    (hs : x.seat = seat) :
    releaseChannelCommand seat k s =
      granted seat 0
        (((releaseHand k seat .released s).channel k.cfg.channel).level.getD 0 !=
          (s.channel k.cfg.channel).level.getD 0) (releaseHand k seat .released s) := by
  rw [releaseChannelCommand, inHand, hx]
  dsimp only
  rw [if_pos hs]
  exact accept_eq_granted _ _ _ _

end Commands

/-- Settles O47: the checks of the two commands, then HAND or AUTO with the test of the zone. -/
theorem takeAndReleaseChannelChangeBetweenAutoAndHand :
    Obligations.TakeAndReleaseChannelChangeBetweenAutoAndHand := by
  refine ⟨fun seat h b s hp hb => ?_, fun seat h b s hp hb => ?_⟩
  · rw [execTakeChannel_run hp hb]
    refine ⟨fun hr => by rw [channelCommand_miscounted _ hr],
      fun hr hn => by rw [channelCommand_unassigned _ hr hn], fun k hr hk => ?_⟩
    rw [channelCommand_runs _ hr hk]
    refine ⟨fun x hx hne => ?_, fun x hx hs => ?_, fun hx => ?_⟩
    · rw [takeChannelCommand_of_hand hx, if_neg hne]
    · rw [takeChannelCommand_of_hand hx, if_pos hs]
      rfl
    · rw [takeChannelCommand_of_auto hx]
      exact ⟨rfl, enterHand seat k s, rfl, enterHand_writes seat k s⟩
  · rw [execReleaseChannel_run hp hb]
    refine ⟨fun hr => by rw [channelCommand_miscounted _ hr],
      fun hr hn => by rw [channelCommand_unassigned _ hr hn], fun k hr hk => ?_⟩
    rw [channelCommand_runs _ hr hk]
    refine ⟨fun hx => ?_, fun x hx hne => ?_, fun x hx hs => ?_⟩
    · rw [releaseChannelCommand_of_auto hx]
    · rw [releaseChannelCommand_of_other hx hne]
    · rw [releaseChannelCommand_of_own hx hs]
      intro zone waits free aimed aim line driven
      refine ⟨?_, releaseHand k seat .released s, rfl, releaseHand_spec seat .released k s⟩
      have haimed : aimed = s.freed k := by
        cases hsw : k.cfg.switched with
        | false =>
          have hraised : k.cfg.raised = fun level =>
              if 0 < level ∧ level < k.cfg.minLevel then k.cfg.minLevel else level :=
            funext fun level => by simp [ChannelRecord.raised, hsw]
          rw [State.freed, hraised]
          rfl
        | true =>
          rw [freed_of_switched s hsw]
          exact if_neg fun hf => Bool.false_ne_true (hf.1.symm.trans hsw)
      have hdriven : driven = s.freedDriven k := by
        have hread : (s.setChannel k.cfg.channel (s.freed k)).channel k.cfg.channel = s.freed k :=
          rd_wr_self _ _ _
        have h := driveSwitched_of_auto (k := k) (u := s.setChannel k.cfg.channel (s.freed k))
          (by rw [hread]; exact freed_hand k s)
        rw [State.freedDriven, h, hread, setChannel_setChannel, ← haimed]
        rfl
      have hafter : releaseHand k seat .released s =
          postTo seat (.handReleased k.portal k.cfg.channel .released) (testZone k driven) := by
        rw [releaseHand, returnToAuto_eq, hdriven]
      have hlevel : (releaseHand k seat .released s).channel k.cfg.channel =
          driven.channel k.cfg.channel := by
        rw [hdriven, State.channel, State.channel, ← returnToAuto_channels]
        rfl
      rw [hlevel, hafter]
      rfl

end Sys2Proof.Machine
end

section
namespace Sys2Proof.Machine

/-! ### What Trip Units, lamp lines and zones leave -/

/-- From `s` to `u` the clock, the Set Store, the daylight path and the seat ports stand. -/
def SameOutside (s u : State) : Prop :=
  SameClock s u ∧ SameSets s u ∧ SameDaylight s u ∧ u.ports = s.ports

theorem SameButOutput.outside {s u : State} (h : SameButOutput s u) : SameOutside s u := by
  rw [← h]
  exact ⟨⟨rfl, rfl, rfl, rfl, rfl, rfl⟩, ⟨rfl, rfl, rfl, rfl⟩, ⟨rfl, ⟨rfl, rfl⟩, rfl, rfl, rfl⟩, rfl⟩

theorem SameOutside.begun {s u : State} (h : SameOutside s u) : SameOutside s (beginTransactions u) := by
  simpa [SameOutside, SameClock, SameSets, SameDaylight, SameMeters, SameSource, SameStage] using h

theorem lampLine_setLine (s : State) (n : Fin 4) (l : LampLine) : (s.setLine n l).lampLine n = l :=
  rd_wr_self _ _ _

theorem setLine_setLine (s : State) (n : Fin 4) (l m : LampLine) :
    (s.setLine n l).setLine n m = s.setLine n m := by
  simp only [State.setLine, wr_wr]

/-! ### The line condition (R134) -/

theorem mem_onLine {l : LampLine} {st : Station} : st ∈ l.onLine ↔ ∃ a, rd l.stations a = some st := by
  rw [LampLine.onLine, List.mem_filterMap]
  exact ⟨fun ⟨a, _, h⟩ => ⟨a, h⟩, fun ⟨a, h⟩ => ⟨a, mem_allAddrs a, h⟩⟩

/-- DOWN: a channel is on the line, and every one on it is LOST. -/
theorem allLost_iff (l : LampLine) : l.allLost = true ↔
    (∃ a st, rd l.stations a = some st) ∧ ∀ a st, rd l.stations a = some st → st.misses = 3 := by
  have some_on : (!l.onLine.isEmpty) = true ↔ ∃ a st, rd l.stations a = some st := by
    rw [Bool.not_eq_true', List.isEmpty_eq_false_iff_exists_mem, exists_comm]
    exact exists_congr fun st => mem_onLine
  have each : l.onLine.all (fun t => t.misses == 3) = true ↔
      ∀ a st, rd l.stations a = some st → st.misses = 3 := by
    rw [List.all_eq_true]
    exact ⟨fun h a st hst => by simpa using h st (mem_onLine.mpr ⟨a, hst⟩),
      fun h st hst => by
        obtain ⟨a, ha⟩ := mem_onLine.mp hst
        simpa using h a st ha⟩
  rw [LampLine.allLost, Bool.and_eq_true, some_on, each]

theorem testLine_of_same {n : Fin 4} {s : State} (h : (s.lampLine n).allLost = (s.lampLine n).down) :
    testLine n s = s := if_pos h

/-- A changed condition is posted and reported before the Trip Unit acts on it (R114, log 13). -/
theorem testLine_of_changed {n : Fin 4} {s : State} {x : Bool} (hx : (s.lampLine n).allLost = x)
    (h : x ≠ (s.lampLine n).down) : testLine n s = recompute n
      ((postAll (.lineState n x) (s.setLine n { s.lampLine n with down := x })).setTrip n
        { s.tripUnit n with lineDown := x }) := by
  subst hx
  rw [testLine, if_neg h, testLineOnly, if_neg h]
  rfl

/-! ### A reply window that expires (R128, R132) -/

section Miss

variable {n : Fin 4} {x : Transaction} {e : Nat} {heard : Bool} {s : State} {k : Circuit} {st : Station}

/-- The channel that a transaction belongs to is the same once its line is free. -/
theorem txTarget_free (n : Fin 4) (x : Transaction) (s : State) :
    (s.setLine n { s.lampLine n with tx := none }).txTarget n x = s.txTarget n x := by
  rw [State.txTarget, lampLine_setLine]
  rfl

theorem exec_replyWindowExpiry (htx : (s.lampLine n).tx = some x) (hph : x.phase = .window e heard)
    (hle : e ≤ s.now) : exec (.replyWindowExpiry n) s =
      done (endTransaction n x (fun k t => missActs k t x.level.isSome) s) := by
  change execReplyWindowExpiry n s = _
  rw [execReplyWindowExpiry, htx]
  dsimp only
  rw [hph]
  exact if_pos hle

theorem endTransaction_of_target (act : Circuit → Station → State → State) (hd : x.departing = none)
    (ht : s.txTarget n x = some (k, st)) :
    endTransaction n x act s = act k st (s.setLine n { s.lampLine n with tx := none }) := by
  rw [endTransaction, txTarget_free, ht, hd]

/-- A miss is counted in the station. -/
def missCounted (k : Circuit) (st : Station) (s : State) : State :=
  s.setLine k.portal { s.lampLine k.portal with
    stations := wr (s.lampLine k.portal).stations k.addr (some { st with misses := st.misses + 1 }) }

variable (isLevel : Bool)

theorem missActs_of_lost (h : st.misses = 3) : missActs k st isLevel s = s := if_pos h

theorem missActs_of_few (h : st.misses < 2) : missActs k st isLevel s =
    if isLevel && !(s.lampLine k.portal).waits k.addr then enterLevel k (missCounted k st s)
    else missCounted k st s := by
  rw [missActs, if_neg (by omega)]
  exact if_neg (show ¬ st.misses + 1 = 3 by omega)

theorem missActs_of_third (h : st.misses = 2) : missActs k st isLevel s = testLine k.portal
    (tellZone k boostLost (postAll (.channelFault k.portal k.cfg.channel .lost) (missCounted k st s))) := by
  rw [missActs, if_neg (by omega)]
  exact if_pos (show st.misses + 1 = 3 by omega)

theorem tellZone_of_switched {z : Fin 5} (hz : k.cfg.zone = some z) (hs : k.cfg.switched = true)
    (tell : Fin 4 → Fin 5 → State → State) : tellZone k tell s = tell k.portal z s := by
  rw [tellZone, hz]
  exact if_pos hs

theorem tellZone_of_other (h : k.cfg.switched = false ∨ k.cfg.zone = none)
    (tell : Fin 4 → Fin 5 → State → State) : tellZone k tell s = s := by
  unfold tellZone
  split
  · rfl
  · next z hz =>
    rcases h with hs | hn
    · exact if_neg (by simp [hs])
    · rw [hz] at hn
      cases hn

/-- Trips, zones and events leave the stations of a line and everything outside the lighting. -/
theorem stationsKept (n : Fin 4) (s : State) (v : Vector (Option Station) 16) :
    KeptByTrips n (atPortal n) (fun u => SameButOutput s u ∧ (u.lampLine n).stations = v) where
  place := fun _ hk => hk
  scope := fun _ _ _ hk => circuit_portal hk
  zone := fun _ _ _ h => h
  channel := fun _ _ _ _ h => h
  enter := fun _ _ _ _ h => ⟨h.1, by rw [lampLine_setLine, LampLine.enter_stations]; exact h.2⟩
  post := fun _ _ _ _ h => h
  trip := fun _ _ h => h

/-- The third miss leaves the stations as it has counted them. -/
theorem thirdMiss_keeps (isLevel : Bool) (h : st.misses = 2) :
    SameButOutput s (missActs k st isLevel s) ∧
      ((missActs k st isLevel s).lampLine k.portal).stations =
        wr (s.lampLine k.portal).stations k.addr (some { st with misses := st.misses + 1 }) := by
  have kept := stationsKept k.portal s
    (wr (s.lampLine k.portal).stations k.addr (some { st with misses := st.misses + 1 }))
  have told := postAll_keeps kept.post (.channelFault k.portal k.cfg.channel .lost) (by simp [Event.kind])
    (missCounted k st s) ⟨rfl, by rw [missCounted, lampLine_setLine]⟩
  rw [missActs_of_third isLevel h]
  refine (testLine_keeps kept (fun b u hu => ⟨hu.1, ?_⟩) _ ?_).2
  · rw [lampLine_setLine]
    exact hu.2
  · unfold tellZone
    split
    · exact told
    · split
      · exact boostLost_keeps kept.toKeptByLight kept.post _ _ told
      · exact told

end Miss

/-- Settles O57: the miss by its count, and the line condition. -/
theorem missesLoseTheChannelAndTheLineGoesDown : Obligations.MissesLoseTheChannelAndTheLineGoesDown := by
  refine ⟨fun n x e heard k st s htx hph hle hdep htarget => ?_, fun n s => ?_⟩
  · obtain ⟨-, rfl, haddr, -⟩ := txTarget_spec htarget
    intro free counted waits run
    have hrun : run = done (missActs k st x.level.isSome (s.setLine k.portal free)) := by
      rw [← endTransaction_of_target (fun k t => missActs k t x.level.isSome) hdep htarget]
      exact exec_replyWindowExpiry htx hph hle
    have hcounted : missCounted k st (s.setLine k.portal free) = counted := by
      rw [missCounted, lampLine_setLine, setLine_setLine, haddr]
    have hwaits : ((s.setLine k.portal free).lampLine k.portal).waits k.addr = waits := by
      rw [lampLine_setLine, haddr]
      rfl
    refine ⟨fun hm => ?_, fun hm hor => ?_, fun level hm hlev hw hl => ?_, fun hm => ?_, fun hm hor => ?_,
      fun z hm hs hz => ?_⟩
    · rw [hrun, missActs_of_lost _ hm]
    · rw [hrun, missActs_of_few _ hm, hwaits, hcounted]
      rcases hor with hn | hw
      · simp [hn]
      · simp [hw]
    · obtain ⟨l, hl'⟩ := Option.ne_none_iff_exists'.mp hlev
      have hlevel : (counted.channel k.cfg.channel).level = some level := hl
      rw [hrun, missActs_of_few _ hm, hwaits, hcounted, hl', hw, enterLevel, hlevel, haddr]
      rfl
    · obtain ⟨hout, hstations⟩ := thirdMiss_keeps (k := k) (s := s.setLine k.portal free)
        x.level.isSome hm
      have hsame : SameButOutput s (s.setLine k.portal free) := rfl
      obtain ⟨hclock, hsets, hday, hports⟩ := (hsame.trans hout).outside.begun
      obtain ⟨hothers, -⟩ := replyWindow_stays k.portal s _ hrun
      refine ⟨_, hrun, ?_, fun q hq => (hothers q hq).1, hclock, hsets, hday, hports⟩
      rw [beginTransactions_lampLine, LampLine.begin_stations, hstations, haddr, rd_wr_self, hm]
    · rw [hrun, missActs_of_third _ hm, hcounted, tellZone_of_other hor]
    · rw [hrun, missActs_of_third _ hm, hcounted, tellZone_of_switched hz hs]
  · intro l down changed
    have hdown : l.allLost = true ↔ down := allLost_iff l
    refine ⟨fun hd hl => ?_, fun hd hl => ?_, fun h => testLine_of_same ?_⟩
    · exact testLine_of_changed (hdown.mpr hd) (by rw [hl]; exact Bool.false_ne_true.symm)
    · exact testLine_of_changed (Bool.eq_false_iff.mpr (hdown.not.mpr hd))
        (by rw [hl]; exact Bool.false_ne_true)
    · rcases h with ⟨hd, hl⟩ | ⟨hd, hl⟩
      · exact (hdown.mpr hd).trans hl.symm
      · exact (Bool.eq_false_iff.mpr (hdown.not.mpr hd)).trans hl.symm

end Sys2Proof.Machine
end

section
namespace Sys2Proof.Machine

/-! ### The entry to TRIPPED (R97, R99, R116) -/

/-- What portal `q` writes as it trips or is lit leaves a channel that its set does not name. -/
theorem untouchedChannel {q : Fin 4} {s : State} {c : Fin 32} (h : ∀ k ∈ s.circuits q, k.cfg.channel ≠ c) :
    KeptByTrips q (fun k => k ∈ s.circuits q) (fun u => u.active = s.active ∧ u.channel c = s.channel c) where
  place := fun _ hk => circuit_portal hk
  scope := fun u hu k hk => by
    rw [State.circuits, State.set, hu.1] at hk
    exact hk
  zone := fun _ _ _ hu => hu
  channel := fun k x u hk hu => ⟨hu.1, by rw [channel_setChannel, if_neg (h k hk)]; exact hu.2⟩
  enter := fun _ _ _ _ hu => hu
  post := fun _ _ _ _ hu => hu
  trip := fun _ _ hu => hu

theorem circuits_of_active {s u : State} (h : u.active = s.active) (p : Fin 4) :
    u.circuits p = s.circuits p := by
  rw [State.circuits, State.set, h]
  rfl

theorem only_of_active {s u : State} (h : u.active = s.active) {k : Circuit} (ho : s.only k) : u.only k := by
  simpa only [State.only, circuits_of_active h] using ho

/-- A channel that no other circuit names is in no other portal's set. -/
theorem only_elsewhere {s : State} {k : Circuit} (ho : s.only k) {q : Fin 4} (hq : q ≠ k.portal) :
    ∀ j ∈ s.circuits q, j.cfg.channel ≠ k.cfg.channel := fun j hj hc => by
  obtain rfl := ho.2 q j hj hc
  exact hq (circuit_portal hj).symm

section Enter

variable {p : Fin 4} {s : State}

/-- Each circuit of the portal is commanded at its fail level, and keeps its hand and its target. -/
theorem commandFailLevels_channel {k : Circuit} (hk : k ∈ s.circuits p) (ho : s.only k) :
    (commandFailLevels p s).channel k.cfg.channel =
      { s.channel k.cfg.channel with level := some (k.cfg.raised k.cfg.failLevel) } := by
  have hne (j : Circuit) (hj : j ∈ s.circuits p) (h : j ≠ k) : j.cfg.channel ≠ k.cfg.channel :=
    fun hc => h (ho.2 p j hj hc)
  refine forEach_once (f := fun k u => command k k.cfg.failLevel u)
    (P := fun u => u.channel k.cfg.channel =
      { s.channel k.cfg.channel with level := some (k.cfg.raised k.cfg.failLevel) })
    (Q := fun u => u.channel k.cfg.channel = s.channel k.cfg.channel)
    (circuits_nodup _ p) hk (fun u hu => ?_) (fun j hj hjk u hu => ?_) (fun j hj hjk u hu => ?_) s rfl
  · rw [command_channel, hu]
  · rw [command_channel_of_ne (hne j hj hjk)]
    exact hu
  · rw [command_channel_of_ne (hne j hj hjk)]
    exact hu

theorem enterHeld_channels (p : Fin 4) (z : Fin 5) (s : State) : (enterHeld p z s).channels = s.channels := by
  unfold enterHeld
  split <;> rfl

theorem enterTrip_channel {k : Circuit} (hk : k ∈ s.circuits p) (ho : s.only k) :
    (enterTrip p s).channel k.cfg.channel =
      { s.channel k.cfg.channel with level := some (k.cfg.raised k.cfg.failLevel) } := by
  have held (u : State) : (forEach allZones (enterHeld p) u).channels = u.channels :=
    forEach_keeps (P := fun v => v.channels = u.channels) (f := enterHeld p)
      (fun z _ v hv => (enterHeld_channels p z v).trans hv) u rfl
  rw [State.channel, enterTrip, held]
  exact commandFailLevels_channel (s := s.setTrip p _) hk ho

theorem enterTrip_level {u : State} (hu : u.active = s.active) {k : Circuit} (hk : k ∈ s.circuits p)
    (ho : s.only k) :
    ((enterTrip p u).channel k.cfg.channel).level = some (k.cfg.raised k.cfg.failLevel) := by
  rw [enterTrip_channel (circuits_of_active hu p ▸ hk) (only_of_active hu ho)]

theorem enterTrip_local (p : Fin 4) (s : State) : Local p s (enterTrip p s) :=
  enterTrip_keeps (Local.trips p s) s (Local.refl p s)

end Enter

/-! ### One source that joins (R110, R116) -/

theorem setTrip_self (s : State) (p : Fin 4) : s.setTrip p (s.tripUnit p) = s := by
  simp only [State.setTrip, State.tripUnit, wr_rd_self]

theorem tripUnit_setTrip (s : State) (p : Fin 4) (x : TripUnit) : (s.setTrip p x).tripUnit p = x :=
  rd_wr_self _ _ _

section Join

variable {p : Fin 4} {x : TripSource} {s : State}

/-- Where one source is new and none has gone, the recomputation joins it. -/
theorem recompute_of_join (hx : (s.tripUnit p).sources.has x = false)
    (hnew : s.sourcesOf p = (s.tripUnit p).sources.join x) : recompute p s = joinSource p x s := by
  obtain ⟨old, hold⟩ : ∃ old, old = (s.tripUnit p).sources := ⟨_, rfl⟩
  rw [← hold] at hx hnew
  have hmeet : old.meet (old.join x) = old := by
    obtain ⟨f, l, o⟩ := old
    cases x <;> simp [TripSet.meet, TripSet.join]
  have hjoins (y : TripSource) : ((old.join x).has y && !old.has y) = decide (y = x) := by
    cases x <;> cases y <;> simp_all [TripSet.has, TripSet.join]
  have hne : old.join x ≠ TripSet.empty := by
    intro h
    have := congrArg (fun t => t.has x) h
    cases x <;> simp [TripSet.has, TripSet.join, TripSet.empty] at this
  have hleft : s.setTrip p { s.tripUnit p with sources := old } = s := by
    rw [hold]
    exact setTrip_self s p
  unfold recompute
  dsimp only
  rw [hnew, ← hold, hmeet, hleft, if_neg fun h => hne h.1]
  unfold joinIfNew
  rw [hjoins, hjoins, hjoins]
  cases x <;> rfl

theorem postAll_channels (e : Event) (s : State) : (postAll e s).channels = s.channels := rfl

theorem joinSource_tripUnit (p : Fin 4) (x : TripSource) (s : State) :
    (joinSource p x s).tripUnit p = (s.tripUnit p).joined x s.tenths := by
  rw [State.tripUnit, joinSource_trips, rd_wr_self]

/-- Every seat is told TRIPPED. -/
theorem joinSource_queue (p : Fin 4) (x : TripSource) (s : State) (seat : Seat) :
    (joinSource p x s).queue seat =
      (s.queue seat).place (.tripped p x ((s.tripUnit p).sources.join x)) s.uptime := by
  have told (u : State) (hn : u.now = s.now) (hq : u.queues = s.queues) (e : Event) :
      (postAll e u).queue seat = (s.queue seat).place e s.uptime := by
    rw [postAll_queue, uptime_of_now hn, State.queue, hq]
  unfold joinSource
  dsimp only
  split
  · exact told _ rfl rfl _
  · obtain ⟨hn, hq⟩ := enterTrip_quiet p
      (s.setTrip p { s.tripUnit p with sources := (s.tripUnit p).sources.join x })
    exact told _ hn hq _

/-- The first source commands the portal's channels at their fail levels (R99). -/
theorem joinSource_level (ht : s.tripped p = false) {k : Circuit} (hk : k ∈ s.circuits p) (ho : s.only k) :
    ((joinSource p x s).channel k.cfg.channel).level = some (k.cfg.raised k.cfg.failLevel) := by
  unfold joinSource
  dsimp only
  rw [if_neg (show ¬ (s.tripUnit p).overlay = true by rw [← State.tripped, ht]; exact Bool.false_ne_true)]
  rw [State.channel, postAll_channels]
  exact enterTrip_level (u := s.setTrip p _) rfl hk ho

end Join

end Sys2Proof.Machine
end

section
namespace Sys2Proof.Machine

/-! ### TRIP at one portal (R115, R116) -/

section Order

variable (seat : Seat) (reason : Nat) (p : Fin 4) (s : State)

theorem orderTrip_local : Local p s (orderTrip seat reason p s) :=
  orderTrip_keeps (Local.trips p s) seat reason s (Local.refl p s)

theorem orderTrip_output : SameButOutput s (orderTrip seat reason p s) :=
  orderTrip_keeps (SameButOutput.trips p s) seat reason s rfl

variable {p s}

theorem orderTrip_of_latched (h : (s.tripUnit p).orderLatch.isSome = true) : orderTrip seat reason p s = s :=
  if_pos h

theorem orderTrip_of_clear (hs : TripsWf s) (h : (s.tripUnit p).orderLatch = none) :
    orderTrip seat reason p s = joinSource p .order (s.setTrip p
      { s.tripUnit p with orderLatch := some { seat := seat, reason := reason, time := s.tenths } }) := by
  obtain ⟨-, hsources, -⟩ := hs p
  have horder : (s.tripUnit p).sources.order = false := by
    rw [hsources, State.sourcesOf, h]
    rfl
  unfold orderTrip
  dsimp only
  rw [if_neg (by simp [h])]
  refine recompute_of_join ?_ ?_
  · rw [tripUnit_setTrip]
    exact horder
  · rw [State.sourcesOf, State.linePresent, tripUnit_setTrip, hsources]
    rfl

/-- The ORDER latch and the overlay stand, and ORDER is a source. -/
theorem orderTrip_tripUnit (hs : TripsWf s) :
    let u := (orderTrip seat reason p s).tripUnit p
    u.orderLatch = (match (s.tripUnit p).orderLatch with
        | some o => some o
        | none => some { seat := seat, reason := reason, time := s.tenths }) ∧
      u.overlay = true ∧ u.sources = { (s.tripUnit p).sources with order := true } ∧
      u.fireLatch = (s.tripUnit p).fireLatch := by
  intro u
  cases h : (s.tripUnit p).orderLatch with
  | some o =>
    obtain ⟨-, hsources, hoverlay⟩ := hs p
    have hu : u = s.tripUnit p := by
      rw [← orderTrip_of_latched seat reason (p := p) (s := s) (by rw [h]; rfl)]
    have horder : (s.tripUnit p).sources.order = true := by
      rw [hsources, State.sourcesOf, h]
      rfl
    rw [hu, h, hoverlay]
    refine ⟨rfl, ?_, ?_, rfl⟩
    · rw [bne_iff_ne]
      intro he
      rw [he] at horder
      exact Bool.false_ne_true horder
    · rw [← horder]
  | none =>
    have hu : u = (TripUnit.joined { s.tripUnit p with
        orderLatch := some { seat := seat, reason := reason, time := s.tenths } } .order s.tenths) := by
      simp only [u]
      rw [orderTrip_of_clear seat reason hs h, joinSource_tripUnit, tripUnit_setTrip]
      rfl
    rw [hu]
    exact ⟨rfl, rfl, rfl, rfl⟩

/-- What every seat is told: TRIPPED, if the ORDER latch was clear. -/
def orderTold (p : Fin 4) (s : State) : List Event :=
  if (s.tripUnit p).orderLatch.isNone then
    [.tripped p .order { (s.tripUnit p).sources with order := true }]
  else []

theorem orderTrip_queue (hs : TripsWf s) (x : Seat) : (orderTrip seat reason p s).queue x =
    (orderTold p s).foldl (fun q e => q.place e s.uptime) (s.queue x) := by
  cases h : (s.tripUnit p).orderLatch with
  | some o => rw [orderTrip_of_latched _ _ (by rw [h]; rfl), orderTold, h]; rfl
  | none =>
    rw [orderTrip_of_clear seat reason hs h, joinSource_queue, tripUnit_setTrip, orderTold, h]
    rfl

theorem orderTrip_level (hs : TripsWf s) (ht : s.tripped p = false) {k : Circuit} (hk : k ∈ s.circuits p)
    (ho : s.only k) :
    ((orderTrip seat reason p s).channel k.cfg.channel).level = some (k.cfg.raised k.cfg.failLevel) := by
  cases h : (s.tripUnit p).orderLatch with
  | some o =>
    obtain ⟨-, hover, -⟩ := orderTrip_tripUnit seat reason (p := p) hs
    rw [orderTrip_of_latched _ _ (by rw [h]; rfl)] at hover
    exact absurd (ht.symm.trans hover) Bool.false_ne_true
  | none =>
    rw [orderTrip_of_clear seat reason hs h]
    refine joinSource_level ?_ (circuits_of_active rfl p ▸ hk) (only_of_active rfl ho)
    rw [tripped_setTrip]
    exact ht

end Order

/-! ### TRIP at the named portals (O51) -/

/-- What distinct elements place in a queue one after the other, where an invariant says what each places. -/
theorem forEach_queue_of {α : Type} {I : State → Prop} {seat : Seat} {l : List α} {f : α → State → State}
    {told : α → State → List Event} (hn : l.Nodup) (hkeep : ∀ a ∈ l, ∀ u, I u → I (f a u))
    (hnow : ∀ a ∈ l, ∀ u, (f a u).now = u.now)
    (hq : ∀ a ∈ l, ∀ u, I u →
      (f a u).queue seat = (told a u).foldl (fun q e => q.place e u.uptime) (u.queue seat))
    (hother : ∀ a ∈ l, ∀ b ∈ l, b ≠ a → ∀ u, told b (f a u) = told b u) (s : State) (hs : I s) :
    (forEach l f s).queue seat =
      (l.flatMap fun a => told a s).foldl (fun q e => q.place e s.uptime) (s.queue seat) := by
  induction l generalizing s with
  | nil => rfl
  | cons a rest ih =>
    obtain ⟨ha, hrest⟩ := List.nodup_cons.mp hn
    have hafter : rest.flatMap (fun b => told b (f a s)) = rest.flatMap (fun b => told b s) :=
      List.flatMap_congr fun b hb =>
        hother a List.mem_cons_self b (List.mem_cons_of_mem a hb) (fun h => ha (h ▸ hb)) s
    rw [forEach, ih hrest (fun b hb => hkeep b (List.mem_cons_of_mem a hb))
      (fun b hb => hnow b (List.mem_cons_of_mem a hb)) (fun b hb => hq b (List.mem_cons_of_mem a hb))
      (fun b hb c hc => hother b (List.mem_cons_of_mem a hb) c (List.mem_cons_of_mem a hc)) _
      (hkeep a List.mem_cons_self s hs), hafter, hq a List.mem_cons_self s hs,
      uptime_of_now (hnow a List.mem_cons_self s), List.flatMap_cons, List.foldl_append]

theorem flatMap_ite {α β : Type} (l : List α) (g : α → Bool) (e : α → β) :
    (l.flatMap fun a => if g a then [e a] else []) = (l.filter g).map e := by
  induction l with
  | nil => rfl
  | cons a rest ih => cases hg : g a <;> simp [List.flatMap_cons, hg, ih]

section Orders

variable (seat : Seat) (reason : Nat) {l : List (Fin 4)} {s : State} (hn : l.Nodup) (hs : TripsWf s)

theorem orderTrip_wf {p : Fin 4} {u : State} (hu : TripsWf u) : TripsWf (orderTrip seat reason p u) :=
  TripsWf.parts.order seat reason p u hu

theorem orderTrips_output (l : List (Fin 4)) (s : State) :
    SameButOutput s (forEach l (orderTrip seat reason) s) :=
  forEach_output (fun p _ u => orderTrip_output seat reason p u) s

theorem orderTrips_others {q : Fin 4} (hq : q ∉ l) (s : State) :
    SamePortal q s (forEach l (orderTrip seat reason) s) :=
  forEach_keeps (P := SamePortal q s) (f := orderTrip seat reason)
    (fun p hp u hu => hu.trans ((orderTrip_local seat reason p u).others q fun h => hq (h ▸ hp)).1) s
    (SamePortal.refl q s)

include hn hs

/-- What a named portal's own order brings about at its Trip Unit stands after the others. -/
theorem orderTrips_tripUnit {p : Fin 4} (hp : p ∈ l) {P : TripUnit → Prop}
    (h : ∀ u, TripsWf u → u.tripUnit p = s.tripUnit p → u.tenths = s.tenths →
      P ((orderTrip seat reason p u).tripUnit p)) :
    P ((forEach l (orderTrip seat reason) s).tripUnit p) := by
  have other (q : Fin 4) (hq : q ≠ p) (u : State) :
      (orderTrip seat reason q u).tripUnit p = u.tripUnit p := by
    obtain ⟨⟨-, -, -, -, -, htrip, -⟩, -⟩ := (orderTrip_local seat reason q u).others p hq.symm
    exact htrip
  refine forEach_once (f := orderTrip seat reason) (P := fun u => P (u.tripUnit p))
    (Q := fun u => TripsWf u ∧ u.tripUnit p = s.tripUnit p ∧ u.tenths = s.tenths) hn hp
    (fun u hu => h u hu.1 hu.2.1 hu.2.2) (fun q _ hq u hu => ⟨?_, ?_, ?_⟩) (fun q _ hq u hu => ?_) s
    ⟨hs, rfl, rfl⟩
  · exact orderTrip_wf seat reason hu.1
  · exact (other q hq u).trans hu.2.1
  · rw [State.tenths, (orderTrip_local seat reason q u).now]
    exact hu.2.2
  · rw [other q hq u]
    exact hu

/-- TRIPPED of each portal whose ORDER latch was clear (log 43). -/
theorem orderTrips_queue (x : Seat) : (forEach l (orderTrip seat reason) s).queue x =
    (l.filter fun p => (s.tripUnit p).orderLatch.isNone).foldl
      (fun q p => q.place (.tripped p .order { (s.tripUnit p).sources with order := true }) s.uptime)
      (s.queue x) := by
  rw [forEach_queue_of (I := TripsWf) (told := orderTold) hn (fun p _ u hu => orderTrip_wf seat reason hu)
    (fun p _ u => (orderTrip_local seat reason p u).now)
    (fun p _ u hu => orderTrip_queue seat reason hu x) (fun p _ q _ hq u => ?_) s hs]
  · unfold orderTold
    rw [flatMap_ite, List.foldl_map]
  · obtain ⟨⟨-, -, -, -, -, htrip, -⟩, -⟩ := (orderTrip_local seat reason p u).others q hq
    rw [orderTold, htrip]
    rfl

/-- The channels of each portal that enters TRIPPED stand at their fail levels. -/
theorem orderTrips_level {p : Fin 4} (hp : p ∈ l) (ht : s.tripped p = false) {k : Circuit}
    (hk : k ∈ s.circuits p) (ho : s.only k) :
    ((forEach l (orderTrip seat reason) s).channel k.cfg.channel).level =
      some (k.cfg.raised k.cfg.failLevel) := by
  have active (q : Fin 4) (u : State) (hu : u.active = s.active) :
      (orderTrip seat reason q u).active = s.active := (orderTrip_local seat reason q u).active.trans hu
  refine (forEach_once (f := orderTrip seat reason)
    (P := fun u => u.active = s.active ∧
      (u.channel k.cfg.channel).level = some (k.cfg.raised k.cfg.failLevel))
    (Q := fun u => TripsWf u ∧ u.active = s.active ∧ u.tripped p = false) hn hp
    (fun u hu => ⟨active p u hu.2.1, ?_⟩) (fun q _ hq u hu => ⟨?_, active q u hu.2.1, ?_⟩)
    (fun q _ hq u hu => ⟨active q u hu.1, ?_⟩) s ⟨hs, rfl, ht⟩).2
  · obtain ⟨hwf, hactive, htrip⟩ := hu
    exact orderTrip_level seat reason hwf htrip (circuits_of_active hactive p ▸ hk) (only_of_active hactive ho)
  · exact orderTrip_wf seat reason hu.1
  · obtain ⟨⟨-, -, -, -, -, htrip, -⟩, -⟩ := (orderTrip_local seat reason q u).others p hq.symm
    rw [State.tripped, htrip]
    exact hu.2.2
  · have helse := only_elsewhere (only_of_active hu.1 ho) (q := q) (by rw [circuit_portal hk]; exact hq)
    rw [(orderTrip_keeps (untouchedChannel helse) seat reason u ⟨rfl, rfl⟩).2]
    exact hu.2

end Orders

section Command

variable {seat : Seat} {h : Header} {b : List Byte} {s : State}

theorem execTrip_run (hp : (s.port seat).phase = .header) (hb : b.length = 2) :
    exec (.trip seat h b) s = done (tripCommand seat h (byteAt b 0) s) := by
  change execTrip seat h b s = _
  rw [execTrip, withRecord_run hp hb]

theorem tripCommand_accepted {reason : Nat} (hr : h.records = 1) (hne : h.portals ≠ [])
    (hconf : ∀ p ∈ h.portals, s.baseOf p ≠ .unconfigured) :
    tripCommand seat h reason s =
      let after := forEach h.portals (orderTrip seat reason) s
      let mask := overlayMask h.portals s after true
      granted seat mask (mask != 0) after := by
  have hany : ¬ (h.portals.any fun p => s.baseOf p == .unconfigured) = true := by
    simpa using hconf
  rw [tripCommand, if_neg (not_not.mpr hr), if_neg hne, if_neg hany]
  exact accept_eq_granted _ _ _ _

/-- The portals that entered TRIPPED, where all of some portals have. -/
theorem overlayMask_of_all {l : List (Fin 4)} {s t : State} (h : ∀ p ∈ l, t.tripped p = true) :
    overlayMask l s t true = maskOf (l.filter fun p => !s.tripped p) := by
  rw [overlayMask]
  refine congrArg maskOf (List.filter_congr fun p hp => ?_)
  rw [h p hp]
  cases s.tripped p <;> rfl

end Command

/-- Settles O51: TRIP by its checks and portal by portal, and the entry to TRIPPED. -/
theorem tripLatchesOrderAndEntersTripped : Obligations.TripLatchesOrderAndEntersTripped := by
  refine ⟨fun seat h b s hp hb => ?_, fun p s => ⟨?_, fun k hk ho => ?_, fun z zn hz => ?_, fun z hz => ?_,
    fun q hq => ((enterTrip_local p s).others q hq).1⟩⟩
  · rw [execTrip_run hp hb]
    refine ⟨fun hor => ?_, fun hr hun => ?_, fun hr hne hconf hs => ?_⟩
    · rcases hor with hr | hn
      · rw [tripCommand, if_pos hr, refuse_eq_denied]
      · rw [tripCommand, if_pos hn, refuse_eq_denied, ite_self]
    · have hany : (h.portals.any fun p => s.baseOf p == .unconfigured) = true := by simpa using hun
      have hne : h.portals ≠ [] := by
        obtain ⟨p, hp, -⟩ := hun
        exact List.ne_nil_of_mem hp
      rw [tripCommand, if_neg (not_not.mpr hr), if_neg hne, if_pos hany, refuse_eq_denied]
    · intro mask
      have hn := portals_nodup h
      have units (p : Fin 4) (hp : p ∈ h.portals) :=
        orderTrips_tripUnit seat (byteAt b 0) hn hs hp
          (P := fun v => v.orderLatch = (match (s.tripUnit p).orderLatch with
              | some o => some o
              | none => some { seat := seat, reason := byteAt b 0, time := s.tenths }) ∧
            v.overlay = true ∧ v.sources = { (s.tripUnit p).sources with order := true } ∧
            v.fireLatch = (s.tripUnit p).fireLatch)
          fun u hu htrip htime => by
            have h := orderTrip_tripUnit seat (byteAt b 0) (p := p) hu
            rw [htrip, htime] at h
            exact h
      have hmask : overlayMask h.portals s (forEach h.portals (orderTrip seat (byteAt b 0)) s) true = mask :=
        overlayMask_of_all fun p hp => (units p hp).2.1
      obtain ⟨hclock, hsets, hday, hports⟩ := (orderTrips_output seat (byteAt b 0) h.portals s).outside
      refine ⟨_, ?_, units, orderTrips_queue seat (byteAt b 0) hn hs,
        fun p hp ht k hk ho => orderTrips_level seat (byteAt b 0) hn hs hp ht hk ho,
        fun p hp => orderTrips_others seat (byteAt b 0) hp s, hclock, hsets, hday, hports⟩
      rw [tripCommand_accepted hr hne hconf]
      dsimp only
      rw [hmask]
  · rw [State.tripUnit, enterTrip_trips, rd_wr_self]
  · rw [enterTrip_channel hk ho]
    exact ⟨rfl, rfl, rfl⟩
  · rw [enterTrip_zone, hz]
    rfl
  · rw [enterTrip_zone, hz]
    rfl

end Sys2Proof.Machine
end

section
namespace Sys2Proof.Machine

/-! ### The end of a trip at the Trip Unit (R119, R120) -/

section Recompute

variable {p : Fin 4} {s : State}

theorem joinIfNew_empty (kept : TripSet) (x : TripSource) (u : State) :
    joinIfNew p TripSet.empty kept x u = u := by
  rw [joinIfNew, has_empty]
  rfl

/-- A tripped portal without a source leaves TRIPPED. -/
theorem recompute_of_none (ht : s.tripped p = true) (hs : s.sourcesOf p = TripSet.empty) :
    recompute p s = exitTrip p (s.setTrip p { s.tripUnit p with sources := TripSet.empty }) := by
  have hmeet : (s.tripUnit p).sources.meet TripSet.empty = TripSet.empty := by
    simp [TripSet.meet, TripSet.empty]
  unfold recompute
  dsimp only
  rw [hs, hmeet, joinIfNew_empty, joinIfNew_empty, joinIfNew_empty,
    if_pos ⟨rfl, (tripped_setTrip _ _ _).trans ht⟩]

theorem setTrip_setTrip (s : State) (p : Fin 4) (x y : TripUnit) :
    (s.setTrip p x).setTrip p y = s.setTrip p y := by
  simp only [State.setTrip, wr_wr]

/-- The last latches of a tripped portal whose line is not a source are cleared. -/
theorem resetTrip_of_last {fire order : Bool} (ht : s.tripped p = true) (hl : s.linePresent p = false)
    (hf : (s.tripUnit p).fireLatch ≠ none → fire = true)
    (ho : (s.tripUnit p).orderLatch ≠ none → order = true) :
    resetTrip fire order p s = exitTrip p (s.setTrip p
      { s.tripUnit p with fireLatch := none, orderLatch := none, sources := TripSet.empty }) := by
  have hfire : (if fire then none else (s.tripUnit p).fireLatch) = none := by
    cases hx : (s.tripUnit p).fireLatch with
    | none => exact ite_self _
    | some t => rw [hf (by simp [hx]), if_pos rfl]
  have horder : (if order then none else (s.tripUnit p).orderLatch) = none := by
    cases hx : (s.tripUnit p).orderLatch with
    | none => exact ite_self _
    | some t => rw [ho (by simp [hx]), if_pos rfl]
  have hsources : (s.setTrip p { s.tripUnit p with fireLatch := none, orderLatch := none }).sourcesOf p =
      TripSet.empty := by
    rw [State.sourcesOf, State.linePresent, tripUnit_setTrip]
    exact congrArg (fun line => TripSet.mk false line false) hl
  have htripped : (s.setTrip p { s.tripUnit p with fireLatch := none, orderLatch := none }).tripped p =
      true := (tripped_setTrip _ _ _).trans ht
  rw [resetTrip, hfire, horder]
  refine (recompute_of_none htripped hsources).trans ?_
  rw [setTrip_setTrip, tripUnit_setTrip]

end Recompute

/-! ### TRIP_RESET of one portal (R119) -/

theorem exitTrip_tripUnit (p : Fin 4) (s : State) :
    (exitTrip p s).tripUnit p = { s.tripUnit p with overlay := false } := by
  rw [State.tripUnit, exitTrip_trips, rd_wr_self]

theorem exitTrip_untripped (p : Fin 4) (s : State) : (exitTrip p s).tripped p = false := by
  rw [State.tripped, exitTrip_tripUnit]

section Command

variable {seat : Seat} {h : Header} {b : List Byte} {p : Fin 4} {s : State}

theorem execTripReset_run (hp : (s.port seat).phase = .header) (hb : b.length = 2) :
    exec (.tripReset seat h b) s =
      done (tripResetCommand seat h (bitAt b 0 0) (bitAt b 0 1) s) := by
  change execTripReset seat h b s = _
  rw [execTripReset, withRecord_run hp hb]

/-- A TRIP_RESET of one portal that a named source has latched, its fire input not ACTIVE. -/
theorem tripResetCommand_single {fire order : Bool} (hr : h.records = 1) (hn : h.portals = [p])
    (hnamed : s.namedLatched fire order p = true) (hactive : (fire && s.fireActive p) = false) :
    tripResetCommand seat h fire order s =
      let after := resetTrip fire order p s
      let mask := overlayMask [p] s after false
      granted seat mask (mask != 0) after := by
  have hsome : ¬ (!fire && !order) = true := by
    intro hf
    simp only [Bool.and_eq_true, Bool.not_eq_true'] at hf
    simp [State.namedLatched, hf] at hnamed
  rw [tripResetCommand, if_neg (not_not.mpr hr), hn, if_neg (List.cons_ne_nil _ _), if_neg hsome]
  simp only [List.find?_cons, hactive, List.find?_nil, List.any_cons, hnamed, Bool.true_or, if_true]
  exact accept_eq_granted _ _ _ _

theorem overlayMask_of_exit {t : State} (hs : s.tripped p = true) (ht : t.tripped p = false) :
    overlayMask [p] s t false = 2 ^ p.val := by
  rw [overlayMask, List.filter_cons_of_pos (by simp [hs, ht]), List.filter_nil, maskOf_singleton]

end Command

end Sys2Proof.Machine
end

section
namespace Sys2Proof.Machine

/-! ### The channels of a portal that leaves TRIPPED (R97, R99, R120) -/

theorem leaveFailLevel_of_hand {k : Circuit} {s : State} {x : Hand}
    (h : (s.channel k.cfg.channel).hand = some x) : leaveFailLevel k s = command k x.level s := by
  rw [leaveFailLevel, h]

theorem leaveFailLevel_of_auto {k : Circuit} {s : State} (h : (s.channel k.cfg.channel).hand = none) :
    leaveFailLevel k s = driveSwitched k s := by
  rw [leaveFailLevel, h]

theorem command_target (k : Circuit) (level : Nat) (s : State) (c : Fin 32) :
    ((command k level s).channel c).target = (s.channel c).target := by
  rw [State.channel, command_channels, rd_wr]
  split
  · next hc => rw [← hc]
  · rfl

/-- Leaving the fail levels changes levels alone. -/
theorem leaveFailLevel_target (k : Circuit) (s : State) (c : Fin 32) :
    ((leaveFailLevel k s).channel c).target = (s.channel c).target := by
  unfold leaveFailLevel
  split
  · exact command_target _ _ _ _
  · exact driveSwitched_target _ _ _

theorem leaveFailLevel_channel_of_ne {k : Circuit} {c : Fin 32} (h : k.cfg.channel ≠ c) (s : State) :
    (leaveFailLevel k s).channel c = s.channel c := by
  unfold leaveFailLevel
  split
  · exact command_channel_of_ne h _ _
  · exact driveSwitched_channel_of_ne h _

theorem leaveFailLevel_same (k : Circuit) (s : State) : SameButChannels s (leaveFailLevel k s) := by
  unfold leaveFailLevel
  split
  · exact command_same _ _ _
  · unfold driveSwitched
    dsimp only
    split
    · exact command_same _ _ _
    · rfl

theorem SameButChannels.active {s u : State} (h : SameButChannels s u) : u.active = s.active :=
  h.output.active

theorem leaveHeld_of_plan {P : State → Prop} {p : Fin 4} {y : Fin 5} {C : Circuit → Prop}
    (h : KeptByPlan p y C P) (u : State) (hu : P u) : P (leaveHeld p y u) := by
  cases hy : u.zone p y with
  | none => rwa [leaveHeld_of_none hy]
  | some zn =>
    rw [leaveHeld_of_some hy]
    exact h.plan _ u hu

/-- From `s` to `u` a portal has left TRIPPED, and its active set and the hands stand. -/
structure Untripped (p : Fin 4) (s u : State) : Prop where
  active : u.active = s.active
  hands : SameHands s u
  untripped : u.tripped p = false

namespace Untripped

variable {p : Fin 4} {s u : State} (h : Untripped p s u)
include h

theorem leaveHeld (y : Fin 5) : Untripped p s (leaveHeld p y u) := by
  obtain ⟨⟨-, ⟨hactive, -⟩, -, htrips, -⟩, -⟩ := leaveHeld_of_plan (plan_rest p y u) u ⟨.refl p y u, rfl⟩
  have hhands := leaveHeld_of_plan (planHands p y u) u fun _ => rfl
  refine ⟨hactive.trans h.active, h.hands.trans hhands, ?_⟩
  rw [State.tripped, State.tripUnit, htrips]
  exact h.untripped

theorem leaveFailLevel (k : Circuit) : Untripped p s (leaveFailLevel k u) := by
  have hsame := leaveFailLevel_same k u
  refine ⟨hsame.active.trans h.active,
    h.hands.trans ((SameHands.output p u).leaveFailLevel trivial u fun _ => rfl), ?_⟩
  rw [State.tripped, State.tripUnit, hsame.trips]
  exact h.untripped

end Untripped

/-- A portal whose overlay is cleared, which every seat is told. -/
def tripEnded (p : Fin 4) (s : State) : State :=
  postAll (.tripCleared p) (s.setTrip p { s.tripUnit p with overlay := false })

/-- Its zones have planned from the fail levels. -/
def tripPlanned (p : Fin 4) (s : State) : State := forEach allZones (leaveHeld p) (tripEnded p s)

section Exit

variable {p : Fin 4} {s : State}

theorem tripEnded_untripped : Untripped p s (tripEnded p s) :=
  ⟨rfl, fun _ => rfl, tripped_setTrip _ _ _⟩

theorem tripPlanned_untripped : Untripped p s (tripPlanned p s) :=
  forEach_keeps (P := Untripped p s) (f := leaveHeld p) (fun y _ _ hu => hu.leaveHeld y) _
    tripEnded_untripped

theorem exitTrip_eq (p : Fin 4) (s : State) :
    exitTrip p s = forEach (s.circuits p) leaveFailLevel (tripPlanned p s) := by
  rw [← circuits_of_active (tripPlanned_untripped (p := p) (s := s)).active]
  rfl

/-- Every seat is told that the trip has ended, and of nothing else. -/
theorem exitTrip_queue (seat : Seat) :
    (exitTrip p s).queue seat = (s.queue seat).place (.tripCleared p) s.uptime := by
  have planned : (tripPlanned p s).queues = (tripEnded p s).queues :=
    forEach_keeps (P := fun u => u.queues = (tripEnded p s).queues) (f := leaveHeld p)
      (fun y _ u hu => (leaveHeld_keeps (quietLight p u) y u ⟨rfl, rfl⟩).2.trans hu) _ rfl
  have left : (exitTrip p s).queues = (tripPlanned p s).queues := by
    rw [exitTrip_eq]
    exact forEach_keeps (P := fun u => u.queues = (tripPlanned p s).queues) (f := leaveFailLevel)
      (fun k _ u hu => (leaveFailLevel_keeps (quietLight k.portal u) k rfl u ⟨rfl, rfl⟩).2.trans hu) _ rfl
  rw [State.queue, left, planned]
  exact postAll_queue _ _ _

variable (hd : Distinct (s.circuits p)) {k : Circuit} (hk : k ∈ s.circuits p)
include hd hk

/-- A plan leaves the channels of other zones. -/
theorem plan_elsewhere {y : Fin 5} (hy : k.cfg.zone ≠ some y) (v : Channel) :
    KeptByPlan p y (fun j => j ∈ s.circuits p)
      (fun u => u.active = s.active ∧ u.channel k.cfg.channel = v) := by
  have hne (j : Circuit) (hj : j ∈ s.circuits p) (hz : j.cfg.zone = some y) :
      j.cfg.channel ≠ k.cfg.channel := fun hc => by
    obtain rfl := hd k hk j hj hc
    exact hy hz
  have scope (u : State) (hu : u.active = s.active ∧ u.channel k.cfg.channel = v) :
      ∀ j ∈ u.circuits p, j ∈ s.circuits p := fun j hj => circuits_of_active hu.1 p ▸ hj
  have aim (j : Circuit) (x : Option Nat) (u : State) (hj : j ∈ s.circuits p) (hz : j.cfg.zone = some y)
      (hu : u.active = s.active ∧ u.channel k.cfg.channel = v) :
      (u.setChannel j.cfg.channel { u.channel j.cfg.channel with target := x }).active = s.active ∧
        (u.setChannel j.cfg.channel { u.channel j.cfg.channel with target := x }).channel k.cfg.channel =
          v :=
    ⟨hu.1, by rw [channel_setChannel, if_neg (hne j hj hz)]; exact hu.2⟩
  exact
    { scope := scope, zone := fun _ _ hu => hu, aim := fun j x u hj hz _ hu => aim j x u hj hz hu
      give := giveSwitched_of_writes scope aim fun j level u hj hz _ _ _ hu =>
        ⟨(command_active _ _ _).trans hu.1, (command_channel_of_ne (hne j hj hz) _ _).trans hu.2⟩ }

/-- A plan commands no DIMMED channel. -/
theorem plan_dimmed_level (hs : k.cfg.switched = false) (y : Fin 5) (v : Option Nat) :
    KeptByPlan p y (fun j => j ∈ s.circuits p)
      (fun u => u.active = s.active ∧ (u.channel k.cfg.channel).level = v) := by
  have scope (u : State) (hu : u.active = s.active ∧ (u.channel k.cfg.channel).level = v) :
      ∀ j ∈ u.circuits p, j ∈ s.circuits p := fun j hj => circuits_of_active hu.1 p ▸ hj
  have aim (j : Circuit) (x : Option Nat) (u : State)
      (hu : u.active = s.active ∧ (u.channel k.cfg.channel).level = v) :
      (u.setChannel j.cfg.channel { u.channel j.cfg.channel with target := x }).active = s.active ∧
        ((u.setChannel j.cfg.channel { u.channel j.cfg.channel with target := x }).channel
          k.cfg.channel).level = v := by
    refine ⟨hu.1, ?_⟩
    rw [channel_setChannel]
    split
    · next hc => exact (congrArg (fun c => (u.channel c).level) hc).trans hu.2
    · exact hu.2
  refine
    { scope := scope, zone := fun _ _ hu => hu, aim := fun j x u _ _ _ hu => aim j x u hu
      give := giveSwitched_of_writes scope (fun j x u _ _ hu => aim j x u hu) fun j level u hj _ hsw _ _ hu =>
        ⟨(command_active _ _ _).trans hu.1, ?_⟩ }
  rw [command_channel_of_ne fun hc => ?_]
  · exact hu.2
  · obtain rfl := hd k hk j hj hc
    exact Bool.false_ne_true (hs.symm.trans hsw)

/-- The target that the plan of its zone gives a channel is its target once the portal has left TRIPPED. -/
theorem exitTrip_target {z : Fin 5} (hz : k.cfg.zone = some z) {zn : Zone} (hzn : s.zone p z = some zn)
    {target : Option Nat}
    (h : ∀ u, Untripped p s u → u.channel k.cfg.channel = s.channel k.cfg.channel →
      ((plan p z { zn with switched := (s.set p).failOn p z } u).channel k.cfg.channel).target = target) :
    ((exitTrip p s).channel k.cfg.channel).target = target := by
  have planned : ((tripPlanned p s).channel k.cfg.channel).target = target := by
    have other {y : Fin 5} (hy : y ≠ z) : k.cfg.zone ≠ some y := by
      rw [hz]
      exact fun h => hy (Option.some.inj h).symm
    refine (forEach_once (f := leaveHeld p)
      (P := fun u => u.active = s.active ∧ (u.channel k.cfg.channel).target = target)
      (Q := fun u => Untripped p s u ∧ u.channel k.cfg.channel = s.channel k.cfg.channel ∧
        u.zone p z = some zn)
      allZones_nodup (mem_allZones z) (fun u hu => ?_) (fun y _ hy u hu => ?_) (fun y _ hy u hu => ?_) _
      ⟨tripEnded_untripped, rfl, hzn⟩).2
    · obtain ⟨hu, hchannel, hzone⟩ := hu
      have hset : u.set p = s.set p := by rw [State.set, hu.active]
      refine ⟨(hu.leaveHeld z).active, ?_⟩
      rw [leaveHeld_of_some hzone, hset]
      exact h u hu hchannel
    · obtain ⟨hu, hchannel, hzone⟩ := hu
      exact ⟨hu.leaveHeld y,
        (leaveHeld_of_plan (plan_elsewhere hd hk (other hy) _) u ⟨hu.active, hchannel⟩).2,
        (leaveHeld_zone_of_ne (Ne.symm hy) u).trans hzone⟩
    · obtain ⟨hactive, hchannel⟩ :=
        leaveHeld_of_plan (plan_elsewhere hd hk (other hy) (u.channel k.cfg.channel)) u ⟨hu.1, rfl⟩
      exact ⟨hactive, by rw [hchannel]; exact hu.2⟩
  rw [exitTrip_eq]
  exact forEach_keeps (P := fun u => (u.channel k.cfg.channel).target = target) (f := leaveFailLevel)
    (fun j _ u hu => (leaveFailLevel_target j u _).trans hu) _ planned

omit hd hk

/-- A channel `c` of circuit `k` that has left its fail level, as `d` (R99). -/
def LeftFailLevel (k : Circuit) (c d : Channel) : Prop :=
  d.hand = c.hand ∧ (∀ x ∈ c.hand, d.level = some (k.cfg.raised x.level)) ∧
    (c.hand = none → k.cfg.switched = true → d.level = some (d.target.getD 0)) ∧
    (c.hand = none → k.cfg.switched = false → d.level = c.level)

/-- A channel in HAND jumps to its hand level, a SWITCHED one in AUTO to its target. -/
theorem leaveFailLevel_channel {k : Circuit} {u : State} {c : Channel}
    (hh : (u.channel k.cfg.channel).hand = c.hand)
    (hl : k.cfg.switched = false → (u.channel k.cfg.channel).level = c.level)
    (ht : u.tripped k.portal = false) :
    LeftFailLevel k c ((leaveFailLevel k u).channel k.cfg.channel) := by
  cases hc : c.hand with
  | some x =>
    rw [leaveFailLevel_of_hand (hh.trans hc), command_channel]
    refine ⟨hh, fun y hy => ?_, fun hn => ?_, fun hn => ?_⟩
    · rw [Option.mem_def, hc] at hy
      rw [Option.some.inj hy]
    · rw [hc] at hn
      cases hn
    · rw [hc] at hn
      cases hn
  | none =>
    have hn := hh.trans hc
    rw [leaveFailLevel_of_auto hn]
    cases hs : k.cfg.switched with
    | false =>
      rw [driveSwitched_of_dimmed hs]
      refine ⟨hh, fun y hy => ?_, fun _ hsw => ?_, fun _ _ => hl hs⟩
      · rw [Option.mem_def, hc] at hy
        cases hy
      · exact absurd (hs.symm.trans hsw) Bool.false_ne_true
    | true =>
      have hdrive : driveSwitched k u = command k ((u.channel k.cfg.channel).target.getD 0) u :=
        if_pos ⟨hs, hn, ht⟩
      rw [hdrive, command_channel, raised_of_switched hs]
      refine ⟨hh, fun y hy => ?_, fun _ _ => rfl, fun _ hsw => ?_⟩
      · rw [Option.mem_def, hc] at hy
        cases hy
      · exact absurd (hsw.symm.trans hs) Bool.false_ne_true

include hd hk

theorem exitTrip_channel :
    LeftFailLevel k (s.channel k.cfg.channel) ((exitTrip p s).channel k.cfg.channel) := by
  have level (hs : k.cfg.switched = false) :
      ((tripPlanned p s).channel k.cfg.channel).level = (s.channel k.cfg.channel).level :=
    (forEach_keeps (f := leaveHeld p)
      (P := fun u => u.active = s.active ∧
        (u.channel k.cfg.channel).level = (s.channel k.cfg.channel).level)
      (fun y _ u hu => leaveHeld_of_plan (plan_dimmed_level hd hk hs y _) u hu) (tripEnded p s)
      ⟨rfl, rfl⟩).2
  rw [exitTrip_eq]
  refine forEach_once (f := leaveFailLevel)
    (P := fun u => LeftFailLevel k (s.channel k.cfg.channel) (u.channel k.cfg.channel))
    (Q := fun u => Untripped p s u ∧ (k.cfg.switched = false →
      (u.channel k.cfg.channel).level = (s.channel k.cfg.channel).level))
    (circuits_nodup _ p) hk
    (fun u hu => leaveFailLevel_channel (hu.1.hands _) hu.2 (circuit_portal hk ▸ hu.1.untripped))
    (fun j hj hjk u hu => ⟨hu.1.leaveFailLevel j, fun hs => ?_⟩) (fun j hj hjk u hu => ?_) _
    ⟨tripPlanned_untripped, level⟩
  · rw [leaveFailLevel_channel_of_ne (hd.channel_ne hk hj hjk)]
    exact hu.2 hs
  · rw [leaveFailLevel_channel_of_ne (hd.channel_ne hk hj hjk)]
    exact hu

end Exit

/-! ### The zones of a portal that leaves TRIPPED, as they are stated (O53) -/

section Planned

variable {p : Fin 4} {z : Fin 5} {zn : Zone} {s : State}

/-- The dimmed level that a plan without a confirmed or degraded boost aims at: none while it waits. -/
def unconfirmedAim (b working : Nat) : Option Nat :=
  if needsBoost b working then none else some (levelWithout b working)

/-- The switched target of a plan without a confirmed or degraded boost. -/
def unconfirmedOn (b working : Nat) (on : Bool) : Bool := needsBoost b working || (b != 0 && on)

/-- The targets of a plan without a confirmed or degraded boost (R87, R88). -/
theorem plan_gives_unconfirmed (hc : zn.confirmed = false) (hd : zn.degraded = false) :
    TargetsGiven p z (unconfirmedAim (s.boostShare p z) zn.working)
      (unconfirmedOn (s.boostShare p z) zn.working zn.switched) s (plan p z zn s) := by
  have row {u : State} {x : Zone} {aim : Option Nat} {on : Bool} (ht : plan p z zn s = u)
      (haim : unconfirmedAim (s.boostShare p z) zn.working = aim)
      (hon : unconfirmedOn (s.boostShare p z) zn.working zn.switched = on)
      (hu : u.zone p z = some x ∧ TargetsGiven p z aim on s u) :
      TargetsGiven p z (unconfirmedAim (s.boostShare p z) zn.working)
        (unconfirmedOn (s.boostShare p z) zn.working zn.switched) s (plan p z zn s) := by
    subst ht haim hon
    exact hu.2
  have waits (hn : needsBoost (s.boostShare p z) zn.working = true) :
      unconfirmedAim (s.boostShare p z) zn.working = none := if_pos hn
  have ramps (hn : needsBoost (s.boostShare p z) zn.working = false) :
      unconfirmedAim (s.boostShare p z) zn.working = some (levelWithout (s.boostShare p z) zn.working) :=
    if_neg (by simp [hn])
  cases hn : needsBoost (s.boostShare p z) zn.working with
  | true =>
    have hon : unconfirmedOn (s.boostShare p z) zn.working zn.switched = true := by
      simp [unconfirmedOn, hn]
    rcases Bool.eq_false_or_eq_true zn.switched with hsw | hsw
    · exact row (plan_boosted_waiting hn hsw hc hd) (waits hn) hon (enterBoostOnWait_gives _ _)
    · exact row (plan_boosted_off hn hsw) (waits hn) hon (enterBoostOnWait_gives _ _)
  | false =>
    have hon : unconfirmedOn (s.boostShare p z) zn.working zn.switched =
        (s.boostShare p z != 0 && zn.switched) := by
      rw [unconfirmedOn, hn, Bool.false_or]
    by_cases hb : s.boostShare p z = 0
    · exact row (plan_unshared hb) (ramps hn) (hon.trans (by simp [hb])) (enterRamping_gives _ _ _)
    · have hpos : 0 < s.boostShare p z := Nat.pos_of_ne_zero hb
      rcases Bool.eq_false_or_eq_true zn.switched with hsw | hsw
      · exact row (plan_unboosted_on hpos hn hsw) (ramps hn) (hon.trans (by simp [hsw, hb]))
          (enterBoostOffPrep_gives _ _ _)
      · exact row (plan_unboosted_off hpos hn hsw) (ramps hn) (hon.trans (by simp [hsw]))
          (enterRamping_gives _ _ _)

theorem reached_iff (level : Nat) : s.reached p z level = true ↔
    ∀ k ∈ s.dimmed p z, (s.channel k.cfg.channel).hand = none →
      (s.channel k.cfg.channel).level = some (k.cfg.raised level) := by
  rw [State.reached, List.all_eq_true]
  refine forall₂_congr fun k _ => ?_
  cases (s.channel k.cfg.channel).hand <;> simp

end Planned

section PlannedFrom

variable {p : Fin 4} {z : Fin 5} {zn : Zone} {s t : State} {on : Bool}

/-- A zone that holds what a plan without a confirmed boost makes of it, and whose channels hold the targets
of that plan, is planned as the statement says it. -/
theorem plannedFrom_of_planned (hl : zn.latest = none) (ho : zn.overlap = none) (hf : zn.confirm = none)
    (hc : zn.confirmed = false) (hd : zn.degraded = false) (hon : zn.switched = on)
    (hzone : t.zone p z = some (s.plans p z zn))
    (hdimmed : ∀ k ∈ s.dimmed p z, (t.channel k.cfg.channel).target =
      match unconfirmedAim (s.boostShare p z) zn.working with
      | some level => some (k.cfg.raised level)
      | none => (s.channel k.cfg.channel).level.map k.cfg.raised)
    (hswitched : ∀ k, (s.set p).switchedOf p z = some k → (t.channel k.cfg.channel).target =
      some (if unconfirmedOn (s.boostShare p z) zn.working on then 1000 else 0)) :
    PlannedFrom p z zn.working on s t := by
  obtain ⟨state, working, latest, switched, confirmed, overlap, confirm, degraded⟩ := zn
  dsimp only at hl ho hf hc hd hon hzone hdimmed hswitched
  subst hl ho hf hc hd hon
  unfold PlannedFrom
  intro b boost without there zone
  have hboost : boost ↔ needsBoost (s.boostShare p z) working = true := (needsBoost_iff _ _).symm
  have hthere : there ↔ s.reached p z (levelWithout (s.boostShare p z) working) = true :=
    (reached_iff _).symm
  have hpos (hb : boost) : s.boostShare p z ≠ 0 := Nat.ne_of_gt hb.1
  have hon : unconfirmedOn b working switched = true ↔ boost ∨ 0 < b ∧ switched = true := by
    rw [hboost, unconfirmedOn, Bool.or_eq_true, Bool.and_eq_true, bne_iff_ne, Nat.pos_iff_ne_zero]
  have hramps (hb : ¬ boost) (hor : b = 0 ∨ switched = false) : t.zone p z =
      zone (if s.reached p z (levelWithout (s.boostShare p z) working) then .steady else .ramping) false none
        none := by
    rw [hzone, State.plans, Zone.planned]
    split
    · rfl
    · next h0 =>
      obtain rfl := hor.resolve_left h0
      rw [if_neg (hboost.not.mp hb)]
      rfl
  refine ⟨fun hb => ?_, fun hb h0 hsw => ⟨fun ht => ?_, fun ht => ?_⟩,
    fun hb hor => ⟨fun ht => ?_, fun ht => ?_⟩, fun k hk => ⟨fun hb => ?_, fun hb => ?_⟩,
    fun k hk => ⟨fun hb => ?_, fun hb => ?_⟩⟩
  · rw [hzone, State.plans, Zone.planned, if_neg (hpos hb), if_pos (hboost.mp hb)]
    cases switched <;> rfl
  · rw [hzone, State.plans, Zone.planned, if_neg h0.ne', if_neg (hboost.not.mp hb), if_pos hsw]
    dsimp only
    rw [if_pos (hthere.mp ht), hsw]
    rfl
  · rw [hzone, State.plans, Zone.planned, if_neg h0.ne', if_neg (hboost.not.mp hb), if_pos hsw]
    dsimp only
    rw [if_neg (hthere.not.mp ht), hsw]
  · rw [hramps hb hor, if_pos (hthere.mp ht)]
  · rw [hramps hb hor, if_neg (hthere.not.mp ht)]
  · rw [hdimmed k hk, unconfirmedAim, if_pos (hboost.mp hb)]
  · rw [hdimmed k hk, unconfirmedAim, if_neg (hboost.not.mp hb)]
    rfl
  · rw [hswitched k hk, if_pos (hon.mpr hb)]
  · rw [hswitched k hk, if_neg (hon.not.mpr hb)]

end PlannedFrom

section Exit

variable {p : Fin 4} {s : State}

theorem boostShare_of_active {u : State} (h : u.active = s.active) (p : Fin 4) (z : Fin 5) :
    u.boostShare p z = s.boostShare p z :=
  congrArg (fun sets : Vector PortalSet 4 => rd (rd sets p).record.boost z) h

/-- A HELD zone of a portal that leaves TRIPPED is planned from the fail levels. -/
theorem exitTrip_plannedFrom (ho : ∀ k ∈ s.circuits p, s.only k) {z : Fin 5} {zn : Zone}
    (hzn : s.zone p z = some zn)
    (hheld : zn = { state := .held, working := zn.working, latest := none, switched := zn.switched,
                    confirmed := false, overlap := none, confirm := none, degraded := false }) :
    PlannedFrom p z zn.working ((s.set p).failOn p z) s (exitTrip p s) := by
  have hd : Distinct (s.circuits p) := fun k hk j hj hc => (ho k hk).2 p j hj hc
  have hconfirmed : zn.confirmed = false := by rw [hheld]
  have hdegraded : zn.degraded = false := by rw [hheld]
  have gives {u : State} (hu : Untripped p s u) : TargetsGiven p z
      (unconfirmedAim (s.boostShare p z) zn.working)
      (unconfirmedOn (s.boostShare p z) zn.working ((s.set p).failOn p z)) u
      (plan p z { zn with switched := (s.set p).failOn p z } u) := by
    have h := plan_gives_unconfirmed (p := p) (z := z)
      (zn := { zn with switched := (s.set p).failOn p z }) (s := u) hconfirmed hdegraded
    rwa [boostShare_of_active hu.active] at h
  refine plannedFrom_of_planned (zn := { zn with switched := (s.set p).failOn p z }) (by rw [hheld])
    (by rw [hheld]) (by rw [hheld]) hconfirmed hdegraded rfl ((exitTrip_zone hd z).1 zn hzn)
    (fun k hk => ?_) (fun k hk => ?_)
  · obtain ⟨hmem, hkz, -⟩ := mem_dimmed.mp hk
    refine exitTrip_target hd hmem hkz hzn fun u hu hc => ?_
    rw [← hc]
    exact (gives hu).1 k (by rwa [dimmed_of_active hu.active]) (only_of_active hu.active (ho k hmem))
  · obtain ⟨hmem, hkz, -⟩ := switchedOf_spec hk
    refine exitTrip_target hd hmem hkz hzn fun u hu _ => ?_
    have hset : u.set p = s.set p := congrArg (rd · p) hu.active
    exact ((gives hu).2 k (hset ▸ hk) (only_of_active hu.active (ho k hmem))).1

end Exit

/-- Settles O53: the end of a trip by the last reset, and what the portal's exit from TRIPPED plans. -/
theorem tripExitPlansFromTheFailLevels : Obligations.TripExitPlansFromTheFailLevels := by
  refine ⟨fun p s => recompute_of_none, fun seat h b p s hp hb hr hn => ?_, fun p s ho => ?_⟩
  · intro fire order u hor hactive ht hf ho hl
    have hnamed : s.namedLatched fire order p = true := by
      rw [State.namedLatched, Bool.or_eq_true, Bool.and_eq_true, Bool.and_eq_true, Option.isSome_iff_ne_none,
        Option.isSome_iff_ne_none]
      exact hor
    have hinactive : (fire && s.fireActive p) = false := by
      rw [Bool.eq_false_iff, ne_eq, Bool.and_eq_true, State.fireActive, Bool.and_eq_true,
        Option.isSome_iff_ne_none]
      exact hactive
    have hmask := overlayMask_of_exit ht (exitTrip_untripped p
      (s.setTrip p { u with fireLatch := none, orderLatch := none, sources := TripSet.empty }))
    have hset : (2 ^ p.val != 0) = true := bne_iff_ne.mpr (Nat.two_pow_pos _).ne'
    rw [execTripReset_run hp hb, tripResetCommand_single hr hn hnamed hinactive]
    dsimp only
    rw [resetTrip_of_last ht hl hf ho, hmask, hset]
  · intro t
    have hd : Distinct (s.circuits p) := fun k hk j hj hc => (ho k hk).2 p j hj hc
    obtain ⟨hclock, hsets, hday, hports⟩ :=
      (exitTrip_keeps (SameButOutput.trips p s) s rfl : SameButOutput s t).outside
    exact ⟨exitTrip_tripUnit p s, fun _ => exitTrip_queue _,
      fun z zn hzn hheld => exitTrip_plannedFrom ho hzn hheld,
      fun k hk => exitTrip_channel hd hk,
      fun c hc => (exitTrip_keeps (untouchedChannel hc) s ⟨rfl, rfl⟩).2,
      (exitTrip_keeps (Local.trips p s) s (Local.refl p s)).others, hclock, hsets, hday, hports⟩

end Sys2Proof.Machine
end

section
namespace Sys2Proof.Machine

/-! ### One channel in a ramp interval (R100) -/

/-- An assigned DIMMED channel in AUTO of an untripped portal, at `a` with target `b`, whose level the
interval changes. -/
structure RampMoves (s : State) (c : Fin 32) (k : Circuit) (a b : Nat) : Prop where
  assigned : s.assignment c = some k
  level : (s.channel c).level = some a
  target : (s.channel c).target = some b
  dimmed : k.cfg.switched = false
  auto : (s.channel c).hand = none
  untripped : s.tripped k.portal = false
  moves : SteppedLevel s k a b ≠ a

theorem rampMove_eq_some {s : State} {c : Fin 32} {k : Circuit} {v : Nat} :
    RampMove s c = some (k, v) ↔ ∃ a b, RampMoves s c k a b ∧ SteppedLevel s k a b = v := by
  constructor
  · intro h
    unfold RampMove at h
    split at h
    · next j a b hj ha hb =>
      split at h
      · next hmoves =>
        obtain ⟨hsw, hh, ht, hne⟩ := hmoves
        obtain ⟨rfl, rfl⟩ := Prod.mk.inj (Option.some.inj h)
        exact ⟨a, b, ⟨hj, ha, hb, hsw, hh, ht, hne⟩, rfl⟩
      · cases h
    · cases h
  · rintro ⟨a, b, h, rfl⟩
    unfold RampMove
    rw [h.assigned, h.level, h.target]
    exact if_pos ⟨h.dimmed, h.auto, h.untripped, h.moves⟩

theorem rampMove_congr {s u : State} {c : Fin 32} (ha : u.active = s.active) (ht : u.trips = s.trips)
    (hc : u.channel c = s.channel c) : RampMove u c = RampMove s c := by
  have htripped (p : Fin 4) : u.tripped p = s.tripped p := congrArg (fun x => (rd x p).overlay) ht
  have hrecord (p : Fin 4) : u.record p = s.record p :=
    congrArg (fun x : Vector PortalSet 4 => (rd x p).record) ha
  have hstep (k : Circuit) (a b : Nat) : SteppedLevel u k a b = SteppedLevel s k a b := by
    unfold SteppedLevel
    rw [hrecord]
  unfold RampMove
  simp only [assignment_of_active ha, hc, htripped, hstep]

theorem steppedLevel_self (s : State) (k : Circuit) (a : Nat) : SteppedLevel s k a a = a := by
  simp [SteppedLevel]

/-- A step lands at a level that the lamp takes. -/
theorem raised_steppedLevel {s : State} {k : Circuit} {a b : Nat} (hab : a ≠ b) :
    k.cfg.raised (SteppedLevel s k a b) = SteppedLevel s k a b := by
  have fixed {x : Nat} (h : ¬ (0 < x ∧ x < k.cfg.minLevel)) : k.cfg.raised x = x :=
    if_neg fun hx => h hx.2
  apply fixed
  unfold SteppedLevel
  dsimp only
  rcases Nat.lt_or_gt_of_ne hab with h | h
  · rw [if_pos h]
    split <;> omega
  · rw [if_neg h.not_gt, if_pos h]
    split <;> omega

section Channel

variable {s : State} {c : Fin 32}

theorem RampMoves.channel {k : Circuit} {a b : Nat} (h : RampMoves s c k a b) : k.cfg.channel = c :=
  (assignment_spec h.assigned).2

theorem RampMoves.ne {k : Circuit} {a b : Nat} (h : RampMoves s c k a b) : a ≠ b := by
  rintro rfl
  exact h.moves (steppedLevel_self s k a)

/-- A channel that moves is commanded a step on, and a zone whose channel lands on its target is tested. -/
theorem rampChannel_of_moves {k : Circuit} {a b : Nat} (h : RampMoves s c k a b) :
    rampChannel c s =
      if SteppedLevel s k a b = b then testZone k (command k (SteppedLevel s k a b) s)
      else command k (SteppedLevel s k a b) s := by
  have htarget : atTarget k (command k (SteppedLevel s k a b) s) = true ↔ SteppedLevel s k a b = b := by
    rw [atTarget, command_channel, raised_steppedLevel h.ne, h.channel, h.target]
    simp
  have hsteps : ¬ (k.cfg.switched = true ∨ (s.channel c).hand.isSome = true ∨
      s.tripped k.portal = true ∨ a = b) := by
    simp [h.dimmed, h.auto, h.untripped, h.ne]
  unfold rampChannel
  rw [h.assigned]
  dsimp only
  rw [h.level, h.target]
  dsimp only
  rw [if_neg hsteps]
  exact if_congr htarget rfl rfl

theorem rampChannel_of_still (h : RampMove s c = none) : rampChannel c s = s := by
  unfold rampChannel
  split
  · rfl
  · next k hk =>
    dsimp only
    split
    · next a b ha hb =>
      split
      · rfl
      · next hsteps =>
        obtain ⟨hsw, hh, ht, hab⟩ : k.cfg.switched = false ∧ (s.channel c).hand = none ∧
            s.tripped k.portal = false ∧ a ≠ b := by simpa using hsteps
        have hstays : SteppedLevel s k a b = a := by
          by_contra hne
          have := rampMove_eq_some.mpr ⟨a, b, ⟨hk, ha, hb, hsw, hh, ht, hne⟩, rfl⟩
          simp [h] at this
        have hchannel := (assignment_spec hk).2
        have hcommand : command k (SteppedLevel s k a b) s = s := by
          unfold command
          dsimp only
          rw [raised_steppedLevel hab, hchannel, ha, hstays, if_pos rfl]
        have htarget : ¬ atTarget k s = true := by
          rw [atTarget, hchannel, ha, hb]
          simpa using hab
        exact (congrArg (fun u => if atTarget k u then testZone k u else u) hcommand).trans (if_neg htarget)
    · rfl

/-- A channel's step is that of its command, and of the completion test of its zone. -/
theorem rampChannel_of_some {k : Circuit} {v : Nat} (h : RampMove s c = some (k, v)) :
    rampChannel c s =
      if (s.channel c).target = some v then testZone k (command k v s) else command k v s := by
  obtain ⟨a, b, hmoves, rfl⟩ := rampMove_eq_some.mp h
  rw [rampChannel_of_moves hmoves, hmoves.target]
  exact if_congr ⟨fun h => congrArg some h.symm, fun h => (Option.some.inj h).symm⟩ rfl rfl

theorem rampMove_raised {k : Circuit} {v : Nat} (h : RampMove s c = some (k, v)) :
    k.cfg.raised v = v := by
  obtain ⟨a, b, hmoves, rfl⟩ := rampMove_eq_some.mp h
  exact raised_steppedLevel hmoves.ne

/-- Only a channel off its target moves. -/
theorem rampMove_not_at_target {k : Circuit} {v : Nat} (h : RampMove s c = some (k, v)) :
    (s.channel c).level ≠ (s.channel c).target := by
  obtain ⟨a, b, hmoves, rfl⟩ := rampMove_eq_some.mp h
  rw [hmoves.level, hmoves.target]
  exact fun hab => hmoves.ne (Option.some.inj hab)

/-- The channel `c` as the interval leaves it. -/
def steppedChannel (s : State) (c : Fin 32) : Channel :=
  match RampMove s c with
  | some (_, v) => { s.channel c with level := some v }
  | none => s.channel c

/-- Lamp line `n` after the step of channel `c`, where it stood as `l` (R101, R130). -/
def rampEnter (s : State) (n : Fin 4) (l : LampLine) (c : Fin 32) : LampLine :=
  match RampMove s c with
  | some (k, level) =>
    if k.portal = n ∧ l.carries k.addr c = true then l.enter k.addr level c else l
  | none => l

/-- From `s` to `u` channels, lamp lines and zones alone have changed. -/
def SameButRamp (s u : State) : Prop :=
  { u with channels := s.channels, lines := s.lines, zones := s.zones } = s

theorem SameButRamp.refl (s : State) : SameButRamp s s := rfl

theorem SameButRamp.active {u : State} (h : SameButRamp s u) : u.active = s.active := by
  have hf := congrArg State.active (id h : { u with channels := _, lines := _, zones := _ } = s)
  exact hf

theorem SameButRamp.trips {u : State} (h : SameButRamp s u) : u.trips = s.trips := by
  have hf := congrArg State.trips (id h : { u with channels := _, lines := _, zones := _ } = s)
  exact hf

theorem SameButRamp.now {u : State} (h : SameButRamp s u) : u.now = s.now := by
  have hf := congrArg State.now (id h : { u with channels := _, lines := _, zones := _ } = s)
  exact hf

theorem SameButRamp.nextRamp {u : State} (h : SameButRamp s u) : u.nextRamp = s.nextRamp := by
  have hf := congrArg State.nextRamp (id h : { u with channels := _, lines := _, zones := _ } = s)
  exact hf

theorem SameButRamp.trans {u v : State} (h : SameButRamp s u) (k : SameButRamp u v) :
    SameButRamp s v := by
  unfold SameButRamp at h k
  rw [← k] at h
  exact h

theorem SameButRamp.command (k : Circuit) (v : Nat) (s : State) : SameButRamp s (command k v s) := by
  have h := congrArg (fun u : State => { u with zones := s.zones }) (command_rest k v s)
  exact h

theorem SameButRamp.testZone (k : Circuit) (s : State) : SameButRamp s (testZone k s) := by
  have h := congrArg (fun u : State => { u with channels := s.channels, lines := s.lines })
    (testZone_writes k s).1
  exact h

theorem testZone_lampLine (k : Circuit) (s : State) (n : Fin 4) :
    (testZone k s).lampLine n = s.lampLine n := by
  have h := congrArg (fun u : State => u.lampLine n) (testZone_writes k s).1
  exact h

theorem rampChannel_channel (c d : Fin 32) (s : State) :
    (rampChannel c s).channel d = if c = d then steppedChannel s c else s.channel d := by
  cases h : RampMove s c with
  | none =>
    rw [rampChannel_of_still h, steppedChannel, h]
    split
    · next hcd => rw [hcd]
    · rfl
  | some kv =>
    obtain ⟨k, v⟩ := kv
    have hk : k.cfg.channel = c := by
      obtain ⟨a, b, hmoves, -⟩ := rampMove_eq_some.mp h
      exact hmoves.channel
    have hcommand : (rampChannel c s).channel d = (command k v s).channel d := by
      rw [rampChannel_of_some h]
      split
      · rw [State.channel, testZone_channels]
      · rfl
    rw [hcommand, steppedChannel, h]
    split
    · next hcd =>
      subst hcd hk
      rw [command_channel, rampMove_raised h]
    · next hcd => exact command_channel_of_ne (fun hd => hcd (hk.symm.trans hd)) _ _

theorem rampChannel_lampLine (c : Fin 32) (n : Fin 4) (s : State) :
    (rampChannel c s).lampLine n = rampEnter s n (s.lampLine n) c := by
  cases h : RampMove s c with
  | none => rw [rampChannel_of_still h, rampEnter, h]
  | some kv =>
    obtain ⟨k, v⟩ := kv
    obtain ⟨a, b, hmoves, hv⟩ := rampMove_eq_some.mp h
    have hk := hmoves.channel
    have hcommand : (rampChannel c s).lampLine n = (command k v s).lampLine n := by
      rw [rampChannel_of_some h]
      split
      · exact testZone_lampLine _ _ _
      · rfl
    have hchanges : (s.channel c).level ≠ some v := by
      rw [hmoves.level, ← hv]
      exact fun h => hmoves.moves (Option.some.inj h).symm
    rw [hcommand, command_lampLine, rampEnter, h, rampMove_raised h, hk]
    by_cases hn : n = k.portal
    · subst hn
      simp [hchanges]
    · rw [if_neg fun h => hn h.1]
      exact (if_neg fun h => hn h.1.symm).symm

theorem SameButRamp.rampChannel (c : Fin 32) (s : State) : SameButRamp s (rampChannel c s) := by
  cases h : RampMove s c with
  | none => rw [rampChannel_of_still h]; exact .refl s
  | some kv =>
    rw [rampChannel_of_some h]
    split
    · exact (SameButRamp.command _ _ s).trans (.testZone _ _)
    · exact .command _ _ s

end Channel

/-! ### The channels of a ramp interval, in ascending order -/

/-- A repetition carries what it has done so far from each element to the next. -/
theorem forEach_inOrder {α : Type} {P : List α → State → Prop} {f : α → State → State} :
    ∀ (l pre : List α) (s : State), (pre ++ l).Nodup →
      (∀ pre a u, a ∉ pre → P pre u → P (pre ++ [a]) (f a u)) → P pre s → P (pre ++ l) (forEach l f s)
  | [], pre, s, _, _, h => by rwa [List.append_nil]
  | a :: l, pre, s, hn, hstep, h => by
    have happ : pre ++ a :: l = (pre ++ [a]) ++ l := by simp
    have ha : a ∉ pre := fun hmem =>
      (List.nodup_append.mp hn).2.2 a hmem a List.mem_cons_self rfl
    rw [happ] at hn ⊢
    exact forEach_inOrder l (pre ++ [a]) (f a s) hn hstep (hstep pre a s ha h)

/-- The channels `pre` have made their step of an interval that began at `s`. -/
structure Ramped (s : State) (pre : List (Fin 32)) (u : State) : Prop where
  same : SameButRamp s u
  channel : ∀ c, u.channel c = if c ∈ pre then steppedChannel s c else s.channel c
  lampLine : ∀ n, u.lampLine n = pre.foldl (rampEnter s n) (s.lampLine n)

namespace Ramped

variable {s u : State} {pre : List (Fin 32)} {c : Fin 32} (h : Ramped s pre u) (hc : c ∉ pre)
include h hc

theorem rampMove : RampMove u c = RampMove s c :=
  rampMove_congr h.same.active h.same.trips ((h.channel c).trans (if_neg hc))

theorem step : Ramped s (pre ++ [c]) (rampChannel c u) := by
  have hchannel : u.channel c = s.channel c := (h.channel c).trans (if_neg hc)
  have hstepped : steppedChannel u c = steppedChannel s c := by
    rw [steppedChannel, steppedChannel, h.rampMove hc, hchannel]
  refine ⟨h.same.trans (.rampChannel c u), fun d => ?_, fun n => ?_⟩
  · rw [rampChannel_channel, hstepped, h.channel d]
    by_cases hcd : c = d
    · subst hcd
      simp
    · simp [hcd, Ne.symm hcd]
  · rw [rampChannel_lampLine, List.foldl_append, ← h.lampLine n]
    simp only [rampEnter, h.rampMove hc, List.foldl_cons, List.foldl_nil]

end Ramped

/-! ### The zones of a ramp interval (R90) -/

/-- The completion of a zone whose overlap would end at `expiry`. -/
def Zone.completed (zn : Zone) (expiry : Nat) : Zone :=
  match zn.state with
  | .ramping => { zn with state := .steady }
  | .boostOffPrep => zn.overlapOff expiry
  | _ => zn

theorem testComplete_completed (p : Fin 4) (z : Fin 5) (s : State) :
    (testComplete p z s).zone p z =
      if rampDone p z s then (s.zone p z).map fun zn => zn.completed (overlapEnd p s) else s.zone p z := by
  cases h : s.zone p z with
  | none =>
    rw [testComplete_of_none h, h, Option.map_none, ite_self]
  | some zn =>
    rw [testComplete_zone h]
    cases rampDone p z s <;> rfl

theorem completed_working (zn : Zone) (expiry : Nat) : (zn.completed expiry).working = zn.working := by
  unfold Zone.completed
  split <;> rfl

theorem overlapEnd_of_same {s u : State} (h : SameButRamp s u) (p : Fin 4) :
    overlapEnd p u = overlapEnd p s := by
  have hrecord : u.record p = s.record p :=
    congrArg (fun x : Vector PortalSet 4 => (rd x p).record) h.active
  rw [overlapEnd, overlapEnd, h.now, hrecord]

theorem rampDone_congr {p : Fin 4} {z : Fin 5} {s u : State} (ha : u.active = s.active)
    (hc : ∀ k ∈ s.dimmed p z, u.channel k.cfg.channel = s.channel k.cfg.channel) :
    rampDone p z u = rampDone p z s := by
  rw [Bool.eq_iff_iff, rampDone_iff, rampDone_iff, dimmed_of_active ha]
  exact forall₂_congr fun k hk => by rw [hc k hk]

theorem rampDone_of_same {p : Fin 4} {z : Fin 5} {s u : State} (ha : u.active = s.active)
    (hc : u.channels = s.channels) : rampDone p z u = rampDone p z s :=
  rampDone_congr ha fun k _ => congrArg (rd · k.cfg.channel) hc

/-- One of the DIMMED channels of zone `z` that are among `pre` lands on its target. -/
def LandedOf (s : State) (p : Fin 4) (z : Fin 5) (pre : List (Fin 32)) : Prop :=
  ∃ k ∈ s.dimmed p z, k.cfg.channel ∈ pre ∧ ∃ b, RampMove s k.cfg.channel = some (k, b) ∧
    (s.channel k.cfg.channel).target = some b

/-- What the channels `pre` leave of a zone: completed if one of them has landed and all are at their
targets. -/
structure RampedZone (s : State) (p : Fin 4) (z : Fin 5) (pre : List (Fin 32)) (u : State) : Prop where
  ramped : Ramped s pre u
  completes : LandedOf s p z pre → rampDone p z u = true →
    u.zone p z = (s.zone p z).map fun zn => zn.completed (overlapEnd p s)
  stays : ¬ (LandedOf s p z pre ∧ rampDone p z u = true) → u.zone p z = s.zone p z

section Zones

variable {s u : State} {p : Fin 4} {z : Fin 5} {pre : List (Fin 32)} {c : Fin 32}

theorem landedOf_nil : ¬ LandedOf s p z [] := by
  rintro ⟨k, -, hk, -⟩
  cases hk

/-- A step that does not land a channel of the zone adds none. -/
theorem landedOf_concat_iff (h : ∀ k ∈ s.dimmed p z, ∀ b, RampMove s c = some (k, b) →
    (s.channel c).target ≠ some b) : LandedOf s p z (pre ++ [c]) ↔ LandedOf s p z pre := by
  refine exists_congr fun k => and_congr_right fun hk => ⟨fun ⟨hmem, b, hb⟩ => ⟨?_, b, hb⟩,
    fun ⟨hmem, hb⟩ => ⟨List.mem_append_left _ hmem, hb⟩⟩
  rcases List.mem_append.mp hmem with hpre | hlast
  · exact hpre
  · obtain rfl := List.mem_singleton.mp hlast
    exact absurd hb.2 (h k hk b hb.1)

namespace RampedZone

variable (h : RampedZone s p z pre u)
include h

/-- A step that neither lands a channel of the zone nor moves one. -/
theorem step_elsewhere (hc : c ∉ pre)
    (hmoves : ∀ k ∈ s.dimmed p z, ∀ b, RampMove s c ≠ some (k, b))
    (hzone : (rampChannel c u).zone p z = u.zone p z)
    (hchannels : ∀ k ∈ u.dimmed p z, (rampChannel c u).channel k.cfg.channel = u.channel k.cfg.channel) :
    RampedZone s p z (pre ++ [c]) (rampChannel c u) := by
  have hlanded := landedOf_concat_iff (pre := pre) fun k hk b hb => absurd hb (hmoves k hk b)
  have hdone := rampDone_congr (SameButRamp.rampChannel c u).active hchannels
  refine ⟨h.ramped.step hc, ?_, ?_⟩
  · rw [hlanded, hdone, hzone]
    exact h.completes
  · rw [hlanded, hdone, hzone]
    exact h.stays

/-- The step of a channel of the zone. -/
theorem step_moves (hc : c ∉ pre) {k : Circuit} {v : Nat} (hk : k ∈ s.dimmed p z)
    (hv : RampMove s c = some (k, v)) : RampedZone s p z (pre ++ [c]) (rampChannel c u) := by
  obtain ⟨a, b, hmoves, -⟩ := rampMove_eq_some.mp hv
  have hkc := hmoves.channel
  have hchannel : u.channel c = s.channel c := (h.ramped.channel c).trans (if_neg hc)
  have hnext := h.ramped.step hc
  have hcu : RampMove u c = some (k, v) := (h.ramped.rampMove hc).trans hv
  have hundone : ¬ rampDone p z u = true := by
    rw [rampDone_iff]
    intro hall
    refine rampMove_not_at_target hcu ?_
    have hat := hall k (by rwa [dimmed_of_active h.ramped.same.active])
    rw [hkc, hchannel] at hat
    rw [hchannel]
    exact hat hmoves.auto
  have hzone : u.zone p z = s.zone p z := h.stays fun hl => hundone hl.2
  obtain ⟨hmem, hkz, -⟩ := mem_dimmed.mp hk
  obtain rfl := circuit_portal hmem
  by_cases hland : (s.channel c).target = some v
  · have htest : rampChannel c u = testComplete k.portal z (command k v u) := by
      rw [rampChannel_of_some hcu, hchannel, if_pos hland, testZone, hkz]
    have hlanded : LandedOf s k.portal z (pre ++ [c]) :=
      ⟨k, hk, by simp [hkc], v, by rw [hkc]; exact ⟨hv, hland⟩⟩
    have hdone : rampDone k.portal z (rampChannel c u) = rampDone k.portal z (command k v u) := by
      obtain ⟨x, hx⟩ := testComplete_writes k.portal z (command k v u)
      rw [htest, hx]
      exact rampDone_of_same rfl rfl
    have hcommand : (command k v u).zone k.portal z = s.zone k.portal z := by
      rw [State.zone, command_zones]
      exact hzone
    have hafter : (rampChannel c u).zone k.portal z =
        if rampDone k.portal z (rampChannel c u) then
          (s.zone k.portal z).map fun zn => zn.completed (overlapEnd k.portal s)
        else s.zone k.portal z := by
      rw [hdone, htest, testComplete_completed, hcommand,
        overlapEnd_of_same (h.ramped.same.trans (.command k v u))]
    refine ⟨hnext, fun _ hd => ?_, fun hn => ?_⟩
    · rw [hafter, if_pos hd]
    · rw [hafter, if_neg fun hd => hn ⟨hlanded, hd⟩]
  · have hcommand : rampChannel c u = command k v u := by
      rw [rampChannel_of_some hcu, hchannel, if_neg hland]
    have hundone' : ¬ rampDone k.portal z (rampChannel c u) = true := by
      rw [rampDone_iff]
      intro hall
      have hat := hall k (by rwa [dimmed_of_active hnext.same.active])
      rw [hkc, hnext.channel c, if_pos (by simp), steppedChannel, hv] at hat
      exact hland (hat hmoves.auto).symm
    refine ⟨hnext, fun _ hd => absurd hd hundone', fun _ => ?_⟩
    rw [hcommand, State.zone, command_zones]
    exact hzone

/-- A zone whose DIMMED circuits alone name their channels goes from step to step. -/
theorem step (ho : ∀ k ∈ s.dimmed p z, s.only k) (hc : c ∉ pre) :
    RampedZone s p z (pre ++ [c]) (rampChannel c u) := by
  cases hv : RampMove s c with
  | none =>
    have hstill := rampChannel_of_still ((h.ramped.rampMove hc).trans hv)
    exact h.step_elsewhere hc (fun k _ b hb => by rw [hv] at hb; cases hb) (by rw [hstill])
      fun k _ => by rw [hstill]
  | some kv =>
    obtain ⟨k, v⟩ := kv
    by_cases hk : k ∈ s.dimmed p z
    · exact h.step_moves hc hk hv
    · obtain ⟨a, b, hmoves, -⟩ := rampMove_eq_some.mp hv
      obtain ⟨hmem, hkc⟩ := assignment_spec hmoves.assigned
      have hcu : RampMove u c = some (k, v) := (h.ramped.rampMove hc).trans hv
      refine h.step_elsewhere hc (fun j hj b hb => ?_) ?_ fun j hj => ?_
      · rw [hv] at hb
        obtain ⟨rfl, -⟩ := Prod.mk.inj (Option.some.inj hb)
        exact hk hj
      · have helse : ¬ (p = k.portal ∧ k.cfg.zone = some z) := by
          rintro ⟨rfl, hkz⟩
          exact hk (mem_dimmed.mpr ⟨hmem, hkz, hmoves.dimmed⟩)
        rw [rampChannel_of_some hcu]
        split
        · rw [(testZone_writes _ _).2 p z helse, State.zone, command_zones]
        · rw [State.zone, command_zones]
      · rw [dimmed_of_active h.ramped.same.active] at hj
        have hjc : c ≠ j.cfg.channel := fun hcj => by
          obtain rfl := (ho j hj).2 k.portal k hmem (hkc.trans hcj)
          exact hk hj
        rw [rampChannel_channel, if_neg hjc]

end RampedZone

end Zones

end Sys2Proof.Machine
end

section
namespace Sys2Proof.Machine

/-! ### RAMP_INTERVAL (O49) -/

/-- The state at the moment of its ramp interval, the next one due. -/
def State.atRamp (s : State) : State := { s with now := max s.now s.nextRamp, nextRamp := s.nextRamp + 100 }

/-- The state whose channels have all made their step. -/
def State.rampRun (s : State) : State := forEach allChannels rampChannel s.atRamp

/-- From `s` to `u` nothing has changed but time, channels, lamp lines and zones. -/
def SameButRampAndTime (s u : State) : Prop :=
  u.resetCause = s.resetCause ∧ u.freeIndex = s.freeIndex ∧ u.firePins = s.firePins ∧
    u.pending = s.pending ∧ SameSets s u ∧ SameDaylight s u ∧ SameTrips s u ∧ u.ports = s.ports ∧
    u.queues = s.queues

theorem SameButRamp.rest {s u : State} (h : SameButRamp s u) : SameButRampAndTime s u := by
  rw [← h]
  exact ⟨rfl, rfl, rfl, rfl, ⟨rfl, rfl, rfl, rfl⟩, ⟨rfl, ⟨rfl, rfl⟩, rfl, rfl, rfl⟩, rfl, rfl, rfl⟩

theorem SameButRampAndTime.begun {s u : State} (h : SameButRampAndTime s u) :
    SameButRampAndTime s (beginTransactions u) := by
  simpa [SameButRampAndTime, SameSets, SameDaylight, SameMeters, SameSource, SameStage, SameTrips] using h

section Run

variable {s : State}

theorem rampMove_atRamp (c : Fin 32) : RampMove s.atRamp c = RampMove s c := rampMove_congr rfl rfl rfl

theorem rampRun_ramped : Ramped s.atRamp allChannels s.rampRun :=
  forEach_inOrder allChannels [] s.atRamp allChannels_nodup (fun _ _ _ hc h => h.step hc)
    ⟨.refl _, fun _ => rfl, fun _ => rfl⟩

theorem rampRun_channel (c : Fin 32) :
    (beginTransactions s.rampRun).channel c = steppedChannel s c := by
  rw [State.channel, beginTransactions_channels]
  refine (rampRun_ramped.channel c).trans ((if_pos (mem_allChannels c)).trans ?_)
  rw [steppedChannel, rampMove_atRamp]
  rfl

theorem steppedChannel_of_step {c : Fin 32} {k : Circuit} {a b : Nat} (hk : s.assignment c = some k)
    (hsw : k.cfg.switched = false) (hh : (s.channel c).hand = none) (ht : s.tripped k.portal = false)
    (ha : (s.channel c).level = some a) (hb : (s.channel c).target = some b) :
    steppedChannel s c = { s.channel c with level := some (SteppedLevel s k a b) } := by
  unfold steppedChannel
  by_cases hstay : SteppedLevel s k a b = a
  · have hnone : RampMove s c = none := by
      unfold RampMove
      rw [hk, ha, hb]
      exact if_neg fun h => h.2.2.2 hstay
    rw [hnone, hstay, ← ha]
  · rw [rampMove_eq_some.mpr ⟨a, b, ⟨hk, ha, hb, hsw, hh, ht, hstay⟩, rfl⟩]

theorem steppedChannel_hand (c : Fin 32) : (steppedChannel s c).hand = (s.channel c).hand := by
  unfold steppedChannel
  split <;> rfl

theorem steppedChannel_of_still {c : Fin 32} (h : s.assignment c = none ∨ (s.channel c).hand ≠ none ∨
    ∃ k, s.assignment c = some k ∧ (k.cfg.switched = true ∨ s.tripped k.portal = true)) :
    steppedChannel s c = s.channel c := by
  unfold steppedChannel
  split
  · next k v hkv =>
    obtain ⟨a, b, hmoves, -⟩ := rampMove_eq_some.mp hkv
    rcases h with hn | hh | ⟨j, hj, hor⟩
    · exact absurd (hmoves.assigned.symm.trans hn) (Option.some_ne_none k)
    · exact absurd hmoves.auto hh
    · obtain rfl := Option.some.inj (hmoves.assigned.symm.trans hj)
      rcases hor with hs | ht
      · exact absurd (hmoves.dimmed.symm.trans hs) Bool.false_ne_true
      · exact absurd (hmoves.untripped.symm.trans ht) Bool.false_ne_true
  · rfl

theorem rampRun_zone {p : Fin 4} {z : Fin 5} (ho : ∀ k ∈ s.dimmed p z, s.only k) :
    RampedZone s.atRamp p z allChannels s.rampRun :=
  forEach_inOrder (P := RampedZone s.atRamp p z) allChannels [] s.atRamp allChannels_nodup
    (fun _ _ _ hc h => h.step ho hc)
    ⟨⟨.refl _, fun _ => rfl, fun _ => rfl⟩, fun h => absurd h landedOf_nil, fun _ => rfl⟩

theorem testComplete_working (q : Fin 4) (y : Fin 5) (u : State) (p : Fin 4) (z : Fin 5) :
    ((testComplete q y u).zone p z).map Zone.working = (u.zone p z).map Zone.working := by
  by_cases hpz : p = q ∧ z = y
  · obtain ⟨rfl, rfl⟩ := hpz
    rw [testComplete_completed]
    split
    · rw [Option.map_map]
      exact congrArg (fun f => (u.zone p z).map f) (funext fun zn => completed_working zn _)
    · rfl
  · obtain ⟨x, hx⟩ := testComplete_writes q y u
    rw [hx, zone_setZone, if_neg hpz]

theorem rampChannel_working (c : Fin 32) (u : State) (p : Fin 4) (z : Fin 5) :
    ((rampChannel c u).zone p z).map Zone.working = (u.zone p z).map Zone.working := by
  cases h : RampMove u c with
  | none => rw [rampChannel_of_still h]
  | some kv =>
    have hcommand (k : Circuit) (v : Nat) : (command k v u).zone p z = u.zone p z := by
      rw [State.zone, command_zones]
    rw [rampChannel_of_some h]
    split
    · unfold testZone
      split
      · rw [hcommand]
      · rw [testComplete_working, hcommand]
    · rw [hcommand]

theorem rampRun_working (p : Fin 4) (z : Fin 5) :
    (s.rampRun.zone p z).map Zone.working = (s.zone p z).map Zone.working :=
  forEach_keeps (P := fun u => (u.zone p z).map Zone.working = (s.zone p z).map Zone.working)
    (f := rampChannel) (fun c _ u hu => (rampChannel_working c u p z).trans hu) s.atRamp rfl

end Run

/-- Settles O49: the channels step in turn (`Ramped`), and a zone is completed by the last of its channels
that lands (`RampedZone`). -/
theorem rampIntervalStepsEachDimmedChannel : Obligations.RampIntervalStepsEachDimmedChannel := by
  intro s
  have hsame : SameButRamp s.atRamp s.rampRun := rampRun_ramped.same
  have hrest : SameButRampAndTime s (beginTransactions s.rampRun) :=
    SameButRampAndTime.begun (s := s) hsame.rest
  have hnow : (beginTransactions s.rampRun).now = max s.now s.nextRamp :=
    (beginTransactions_now _).trans hsame.now
  have hnext : (beginTransactions s.rampRun).nextRamp = s.nextRamp + 100 :=
    (beginTransactions_nextRamp _).trans hsame.nextRamp
  have hzone (p : Fin 4) (z : Fin 5) : (beginTransactions s.rampRun).zone p z = s.rampRun.zone p z := by
    rw [State.zone, beginTransactions_zones]
  refine ⟨beginTransactions s.rampRun, s.rampRun, rfl, rfl, fun c k a b hk hsw hh ht ha hb => ?_, fun c hc => ?_, fun n => ?_,
    fun p z ho => ?_, fun p z => ?_, hnow, hnext, hrest⟩
  · rw [rampRun_channel, steppedChannel_of_step hk hsw hh ht ha hb]
  · rw [rampRun_channel, steppedChannel_of_still hc]
  · rw [rampRun_ramped.lampLine n, allChannels_eq]
    rfl
  · obtain ⟨-, hcompletes, hstays⟩ := rampRun_zone ho
    intro landed there
    have hlanded : landed ↔ LandedOf s.atRamp p z allChannels := by
      refine exists_congr fun k => and_congr_right fun _ => ?_
      rw [rampMove_atRamp]
      exact (and_iff_right (mem_allChannels _)).symm
    have hthere : there ↔ rampDone p z s.rampRun = true := by
      rw [← rampDone_of_same (beginTransactions_active s.rampRun) (beginTransactions_channels s.rampRun),
        rampDone_iff, dimmed_of_active ((beginTransactions_active _).trans hsame.active)]
      refine forall₂_congr fun k _ => ?_
      have hhand : ((beginTransactions s.rampRun).channel k.cfg.channel).hand =
          (s.channel k.cfg.channel).hand := by
        rw [rampRun_channel, steppedChannel_hand]
      rw [hhand]
    rw [hlanded, hthere, hzone, hnow]
    exact ⟨fun hl hd => hcompletes hl hd, hstays⟩
  · rw [hzone]
    exact rampRun_working p z

end Sys2Proof.Machine
end

section
namespace Sys2Proof.Machine

/-! ### The fire input (R111 to R113) -/

section Fire

variable {p : Fin 4} {s : State}

/-- Where the sources and the overlay stand by R110 already, the recomputation changes nothing. -/
theorem recompute_of_same (hs : (s.tripUnit p).sources = s.sourcesOf p)
    (ho : (s.tripUnit p).overlay = ((s.tripUnit p).sources != TripSet.empty)) : recompute p s = s := by
  have hmeet : (s.tripUnit p).sources.meet (s.tripUnit p).sources = (s.tripUnit p).sources := by
    simp [TripSet.meet]
  have none_joins (x : TripSource) :
      joinIfNew p (s.tripUnit p).sources (s.tripUnit p).sources x s = s := by
    rw [joinIfNew, Bool.and_not_self]
    rfl
  have hstays : ¬ ((s.tripUnit p).sources = TripSet.empty ∧ (s.tripUnit p).overlay = true) := by
    rintro ⟨he, hov⟩
    rw [ho, bne_iff_ne] at hov
    exact hov he
  unfold recompute
  dsimp only
  rw [← hs, hmeet, setTrip_self, none_joins, none_joins, none_joins, if_neg hstays]

/-- The level of a pin that is written, through the polarity of the record (R111). -/
theorem fireRead_of_pin (p : Fin 4) (high : Bool) (s : State) :
    { s with firePins := wr s.firePins p high }.fireRead p =
      if (s.record p).activeLow then !high else high := by
  rw [State.fireRead, rd_wr_self]
  change xor high (s.record p).activeLow = _
  cases (s.record p).activeLow
  · exact Bool.xor_false high
  · exact Bool.xor_true high

theorem postAll_now (e : Event) (s : State) : (postAll e s).now = s.now := rfl

/-- The debounced state has become the input level, and every seat is told (R112). -/
def State.fireSettled (s : State) (p : Fin 4) : State :=
  postAll (.fireInput p (s.tripUnit p).fireLevel)
    (s.setTrip p { s.tripUnit p with debounced := (s.tripUnit p).fireLevel, debounce := none })

theorem exec_debounceExpiry {e : Nat} (hd : (s.tripUnit p).debounce = some e) (he : e ≤ s.now) :
    exec (.debounceExpiry p) s = done (recompute p (latchFire p (s.fireSettled p))) := by
  change execDebounceExpiry p s = _
  unfold execDebounceExpiry
  exact if_pos (hd ▸ due_of_le he)

theorem fireSettled_tripUnit (p : Fin 4) (s : State) : (s.fireSettled p).tripUnit p =
    { s.tripUnit p with debounced := (s.tripUnit p).fireLevel, debounce := none } :=
  tripUnit_setTrip s p _

/-- No latch and no line condition is written as the debounced state changes. -/
theorem fireSettled_sourcesOf (p : Fin 4) (s : State) : (s.fireSettled p).sourcesOf p = s.sourcesOf p := by
  rw [State.sourcesOf, State.linePresent, fireSettled_tripUnit]
  rfl

theorem fireSettled_queue (seat : Seat) : (s.fireSettled p).queue seat =
    (s.queue seat).place (.fireInput p (s.tripUnit p).fireLevel) s.uptime :=
  postAll_queue _ _ _

/-- What R113 asks of a portal whose debounced state has become the input level. -/
theorem fireLatches_fireSettled : (s.fireSettled p).fireLatches p = true ↔
    (s.tripUnit p).fireLevel = true ∧ (s.record p).fireArmed = true ∧ s.baseOf p ≠ .unconfigured ∧
      (s.tripUnit p).fireLatch = none := by
  rw [State.fireLatches, fireSettled_tripUnit]
  change ((s.tripUnit p).fireLevel && (s.record p).fireArmed && s.baseOf p != .unconfigured &&
    (s.tripUnit p).fireLatch.isNone) = true ↔ _
  simp only [Bool.and_eq_true, bne_iff_ne, Option.isNone_iff_eq_none, and_assoc]

theorem queue_setTrip (s : State) (p : Fin 4) (x : TripUnit) (seat : Seat) :
    (s.setTrip p x).queue seat = s.queue seat := rfl

theorem fireSettled_now (p : Fin 4) (s : State) : (s.fireSettled p).now = s.now := postAll_now _ _

theorem tenths_setTrip (s : State) (p : Fin 4) (x : TripUnit) : (s.setTrip p x).tenths = s.tenths := rfl

theorem uptime_setTrip (s : State) (p : Fin 4) (x : TripUnit) : (s.setTrip p x).uptime = s.uptime := rfl

theorem fireSettled_tenths (p : Fin 4) (s : State) : (s.fireSettled p).tenths = s.tenths :=
  congrArg (· / 100) (fireSettled_now p s)

/-- FIRE that is newly latched is one more source (R110). -/
theorem recompute_of_fire {now : Nat} (hs : (s.tripUnit p).sources = s.sourcesOf p)
    (hclear : (s.tripUnit p).fireLatch = none) :
    recompute p (s.setTrip p { s.tripUnit p with fireLatch := some now }) =
      joinSource p .fire (s.setTrip p { s.tripUnit p with fireLatch := some now }) := by
  refine recompute_of_join ?_ ?_
  · rw [tripUnit_setTrip]
    change (s.tripUnit p).sources.fire = false
    rw [hs, State.sourcesOf, hclear]
    rfl
  · rw [State.sourcesOf, State.linePresent, tripUnit_setTrip]
    change _ = (s.tripUnit p).sources.join .fire
    rw [hs]
    rfl

theorem fireSettled_sources (hs : TripsWf s) :
    ((s.fireSettled p).tripUnit p).sources = (s.fireSettled p).sourcesOf p := by
  obtain ⟨-, hsources, -⟩ := hs p
  rw [fireSettled_tripUnit, fireSettled_sourcesOf]
  exact hsources

/-- The Trip Unit as FIRE is latched (R113). -/
def TripUnit.fired (u : TripUnit) (now : Nat) : TripUnit :=
  { u with debounced := u.fireLevel, debounce := none, fireLatch := some now }

/-- Where R113 latches FIRE, it joins the sources. -/
theorem recompute_latchFire (hs : TripsWf s) (hl : (s.fireSettled p).fireLatches p = true) :
    recompute p (latchFire p (s.fireSettled p)) =
      joinSource p .fire ((s.fireSettled p).setTrip p ((s.tripUnit p).fired s.tenths)) := by
  obtain ⟨-, -, -, hclear⟩ := fireLatches_fireSettled.mp hl
  have hjoins := recompute_of_fire (now := s.tenths) (fireSettled_sources hs)
    (by rw [fireSettled_tripUnit]; exact hclear)
  rw [latchFire, if_pos hl, fireSettled_tenths, hjoins, fireSettled_tripUnit, TripUnit.fired]

theorem recompute_latchFire_tripUnit (hs : TripsWf s) (hl : (s.fireSettled p).fireLatches p = true) :
    (recompute p (latchFire p (s.fireSettled p))).tripUnit p =
      ((s.tripUnit p).fired s.tenths).joined .fire s.tenths := by
  rw [recompute_latchFire hs hl, joinSource_tripUnit, tripUnit_setTrip, tenths_setTrip, fireSettled_tenths]

/-- Every seat is told of the input, then of the trip (R112, R116). -/
theorem recompute_latchFire_queue (hs : TripsWf s) (hl : (s.fireSettled p).fireLatches p = true)
    (seat : Seat) : (recompute p (latchFire p (s.fireSettled p))).queue seat =
      ((s.queue seat).place (.fireInput p (s.tripUnit p).fireLevel) s.uptime).place
        (.tripped p .fire { (s.tripUnit p).sources with fire := true }) s.uptime := by
  rw [recompute_latchFire hs hl, joinSource_queue, tripUnit_setTrip, queue_setTrip, fireSettled_queue,
    uptime_setTrip, uptime_of_now (fireSettled_now p s)]
  rfl

theorem recompute_latchFire_of_not (hs : TripsWf s) (hl : ¬ (s.fireSettled p).fireLatches p = true) :
    recompute p (latchFire p (s.fireSettled p)) = s.fireSettled p := by
  obtain ⟨-, -, hoverlay⟩ := hs p
  rw [latchFire, if_neg hl]
  refine recompute_of_same (fireSettled_sources hs) ?_
  rw [fireSettled_tripUnit]
  exact hoverlay

/-- A debounce that expires writes the blocks of its own portal, and outputs alone. -/
theorem settle_local (p : Fin 4) (s : State) :
    Local p s (recompute p (latchFire p (s.fireSettled p))) ∧
      SameButOutput s (recompute p (latchFire p (s.fireSettled p))) := by
  have settle {P : State → Prop} {C : Circuit → Prop} (h : KeptByTrips p C P) (hs : P s) :
      P (recompute p (latchFire p (s.fireSettled p))) :=
    recompute_keeps h _ (latchFire_keeps h _
      (postAll_keeps h.post _ (by simp [Event.kind]) _ (h.trip _ _ hs)))
  exact ⟨settle (Local.trips p s) (Local.refl p s), settle (SameButOutput.trips p s) rfl⟩

end Fire

theorem beginTransactions_tripUnit (p : Fin 4) (s : State) :
    (beginTransactions s).tripUnit p = s.tripUnit p := congrArg (rd · p) (beginTransactions_trips s)

/-- Settles O50: the debounce of the input, and its expiry by whether FIRE is latched. -/
theorem fireInputIsDebouncedAndLatched : Obligations.FireInputIsDebouncedAndLatched := by
  refine ⟨fun p high s hne => ?_, fun p e s hs hd he => ?_⟩
  · intro level
    change execFireInputChange p high s = _
    unfold execFireInputChange
    dsimp only
    rw [if_neg hne, fireRead_of_pin]
    rfl
  · intro u settled latches
    rw [exec_debounceExpiry hd he]
    refine ⟨fun hl => ?_, fun hl => ?_⟩
    · rw [recompute_latchFire_of_not hs fun h => hl (fireLatches_fireSettled.mp h)]
      rfl
    · have hlevel : (s.tripUnit p).fireLevel = true := hl.1
      obtain ⟨hlocal, hout⟩ := settle_local p s
      obtain ⟨hclock, hsets, hday, hports⟩ := hout.outside.begun
      have hl := fireLatches_fireSettled.mpr hl
      have hunit := recompute_latchFire_tripUnit hs hl
      have hqueue := recompute_latchFire_queue hs hl
      generalize recompute p (latchFire p (s.fireSettled p)) = joined at *
      rw [← beginTransactions_tripUnit] at hunit
      refine ⟨_, rfl, ?_, ?_, ?_, ?_, ?_, ?_, fun seat => ?_,
        fun q hq => (hlocal.others q hq).1.begun, ?_, ?_, hclock, hsets, hday, hports⟩
      · rw [hunit]; rfl
      · rw [hunit]; rfl
      · rw [hunit]; rfl
      · rw [hunit]; exact hlevel
      · rw [hunit]; rfl
      · rw [hunit]; rfl
      · rw [beginTransactions_queue, hqueue, hlevel]
      · rw [State.arbiter, beginTransactions_arbiters, hout.arbiters]
      · rw [beginTransactions_eval, State.eval, hout.evals]

end Sys2Proof.Machine
end

section
namespace Sys2Proof.Machine

/-! ### TRIP_RESET at one portal (R119, R120) -/

/-- The sources that a reset of FIRE, of ORDER or of both leaves. -/
def TripSet.without (x : TripSet) (fire order : Bool) : TripSet :=
  { x with fire := x.fire && !fire, order := x.order && !order }

/-- A Trip Unit whose named latches are cleared (R119). -/
def TripUnit.unlatched (u : TripUnit) (fire order : Bool) : TripUnit :=
  { u with
    fireLatch := if fire then none else u.fireLatch
    orderLatch := if order then none else u.orderLatch }

/-- A Trip Unit after TRIP_RESET: the sources that are left, and the overlay with them (R120). -/
def TripUnit.resetTo (u : TripUnit) (fire order : Bool) : TripUnit :=
  { u.unlatched fire order with
    sources := u.sources.without fire order
    overlay := u.sources.without fire order != TripSet.empty }

theorem without_empty (fire order : Bool) : TripSet.empty.without fire order = TripSet.empty := rfl

/-- A portal with a source left has its overlay set already, so its overlay time stands. -/
theorem recomputed_without {u : TripUnit} (ho : u.overlay = (u.sources != TripSet.empty))
    (fire order : Bool) (now : Nat) :
    (u.unlatched fire order).recomputed (u.sources.without fire order) now = u.resetTo fire order := by
  have hnotnew : (!u.overlay && u.sources.without fire order != TripSet.empty) = false := by
    by_cases he : u.sources = TripSet.empty
    · rw [he, without_empty, bne_self_eq_false, Bool.and_false]
    · rw [ho, bne_iff_ne.mpr he]
      rfl
  have hsame : (u.unlatched fire order).overlay = u.overlay := rfl
  rw [TripUnit.recomputed, hsame, hnotnew]
  rfl

theorem isSome_cleared {α : Type} (x : Option α) (clear : Bool) :
    (if clear then none else x).isSome = (x.isSome && !clear) := by
  cases clear
  · exact (Bool.and_true _).symm
  · exact (Bool.and_false _).symm

section Reset

variable (fire order : Bool) (p : Fin 4) (s : State)

theorem resetTrip_local : Local p s (resetTrip fire order p s) :=
  resetTrip_keeps (Local.trips p s) fire order s (Local.refl p s)

theorem resetTrip_output : SameButOutput s (resetTrip fire order p s) :=
  resetTrip_keeps (SameButOutput.trips p s) fire order s rfl

theorem sourcesOf_unlatched : (s.setTrip p ((s.tripUnit p).unlatched fire order)).sourcesOf p =
    (s.sourcesOf p).without fire order := by
  rw [State.sourcesOf, State.linePresent, tripUnit_setTrip, TripUnit.unlatched, isSome_cleared,
    isSome_cleared]
  rfl

variable {p s}

theorem resetTrip_tripUnit (hs : TripsWf s) :
    (resetTrip fire order p s).tripUnit p = (s.tripUnit p).resetTo fire order := by
  obtain ⟨-, hsources, hoverlay⟩ := hs p
  rw [State.tripUnit, show resetTrip fire order p s =
      recompute p (s.setTrip p ((s.tripUnit p).unlatched fire order)) from rfl,
    recompute_trips p _ (by rw [tripUnit_setTrip]; exact hoverlay), rd_wr_self, tripUnit_setTrip,
    sourcesOf_unlatched, ← hsources]
  exact recomputed_without hoverlay fire order _

end Reset

/-! ### TRIP_RESET at the named portals (O52) -/

section Resets

variable (fire order : Bool) {l : List (Fin 4)} {s : State}

theorem resetTrips_output (l : List (Fin 4)) (s : State) :
    SameButOutput s (forEach l (resetTrip fire order) s) :=
  forEach_output (fun p _ u => resetTrip_output fire order p u) s

theorem resetTrips_others {q : Fin 4} (hq : q ∉ l) (s : State) :
    SamePortal q s (forEach l (resetTrip fire order) s) :=
  forEach_keeps (P := SamePortal q s) (f := resetTrip fire order)
    (fun p hp u hu => hu.trans ((resetTrip_local fire order p u).others q fun h => hq (h ▸ hp)).1) s
    (SamePortal.refl q s)

/-- Each named portal's Trip Unit is reset once, and the resets of the others leave it. -/
theorem resetTrips_tripUnit (hn : l.Nodup) (hs : TripsWf s) {p : Fin 4} (hp : p ∈ l) :
    (forEach l (resetTrip fire order) s).tripUnit p = (s.tripUnit p).resetTo fire order := by
  have other (q : Fin 4) (hq : q ≠ p) (u : State) :
      (resetTrip fire order q u).tripUnit p = u.tripUnit p := by
    obtain ⟨⟨-, -, -, -, -, htrip, -⟩, -⟩ := (resetTrip_local fire order q u).others p hq.symm
    exact htrip
  refine forEach_once (f := resetTrip fire order)
    (P := fun u => u.tripUnit p = (s.tripUnit p).resetTo fire order)
    (Q := fun u => TripsWf u ∧ u.tripUnit p = s.tripUnit p) hn hp
    (fun u hu => ?_) (fun q _ hq u hu => ⟨TripsWf.parts.reset fire order q u hu.1, ?_⟩)
    (fun q _ hq u hu => (other q hq u).trans hu) s ⟨hs, rfl⟩
  · obtain ⟨hwf, htrip⟩ := hu
    rw [resetTrip_tripUnit fire order hwf, htrip]
  · obtain ⟨-, htrip⟩ := hu
    exact (other q hq u).trans htrip

/-- The portals that left TRIPPED are those tripped before that have no source left (R120). -/
theorem overlayMask_resetTrips (hn : l.Nodup) (hs : TripsWf s) :
    overlayMask l s (forEach l (resetTrip fire order) s) false =
      maskOf (l.filter fun p =>
        s.tripped p && (s.tripUnit p).sources.without fire order == TripSet.empty) := by
  refine congrArg maskOf (List.filter_congr fun p hp => ?_)
  have hover : (forEach l (resetTrip fire order) s).tripped p =
      ((s.tripUnit p).sources.without fire order != TripSet.empty) := by
    rw [State.tripped, resetTrips_tripUnit fire order hn hs hp, TripUnit.resetTo]
  rw [hover, Bool.bne_false, beq_false, bne, Bool.not_not]

end Resets

section Checks

variable {seat : Seat} {h : Header} {fire order : Bool} {s : State}

theorem tripResetCommand_malformed (hm : h.records ≠ 1 ∨ h.portals = []) :
    tripResetCommand seat h fire order s = denied seat .badValue 0 s := by
  rcases hm with hr | hn
  · rw [tripResetCommand, if_pos hr, refuse_eq_denied]
  · rw [tripResetCommand, if_pos hn, refuse_eq_denied, ite_self]

theorem namedLatched_iff {p : Fin 4} : s.namedLatched fire order p = true ↔
    (fire = true ∧ (s.tripUnit p).fireLatch ≠ none) ∨ (order = true ∧ (s.tripUnit p).orderLatch ≠ none) := by
  rw [State.namedLatched, Bool.or_eq_true, Bool.and_eq_true, Bool.and_eq_true, Option.isSome_iff_ne_none,
    Option.isSome_iff_ne_none]

theorem not_unnamed (hnamed : fire = true ∨ order = true) : ¬ (!fire && !order) = true := by
  rcases hnamed with rfl | rfl
  · exact Bool.false_ne_true
  · rw [Bool.not_true, Bool.and_false]
    exact Bool.false_ne_true

variable (hr : h.records = 1) (hne : h.portals ≠ [])
include hr hne

theorem tripResetCommand_unnamed (hf : fire = false) (ho : order = false) :
    tripResetCommand seat h fire order s = denied seat .badValue 1 s := by
  rw [tripResetCommand, if_neg (not_not.mpr hr), if_neg hne, hf, ho]
  rfl

variable (hnamed : fire = true ∨ order = true)
include hnamed

theorem tripResetCommand_active {p : Fin 4}
    (hp : h.portals.find? (fun p => fire && s.fireActive p) = some p) :
    tripResetCommand seat h fire order s = denied seat .active p.val s := by
  rw [tripResetCommand, if_neg (not_not.mpr hr), if_neg hne, if_neg (not_unnamed hnamed), hp]
  rfl

variable (hi : ∀ p ∈ h.portals, (fire && s.fireActive p) = false)
include hi

theorem tripResetCommand_inactive : tripResetCommand seat h fire order s =
    if h.portals.any (s.namedLatched fire order) then
      let after := forEach h.portals (resetTrip fire order) s
      let mask := overlayMask h.portals s after false
      granted seat mask (mask != 0) after
    else denied seat .notTripped 0 s := by
  have hnone : h.portals.find? (fun p => fire && s.fireActive p) = none :=
    List.find?_eq_none.mpr fun p hp => Bool.eq_false_iff.mp (hi p hp)
  rw [tripResetCommand, if_neg (not_not.mpr hr), if_neg hne, if_neg (not_unnamed hnamed), hnone]
  simp only [accept_eq_granted, refuse_eq_denied]

theorem tripResetCommand_unlatched (hl : ∀ p ∈ h.portals, ¬ s.namedLatched fire order p = true) :
    tripResetCommand seat h fire order s = denied seat .notTripped 0 s := by
  rw [tripResetCommand_inactive hr hne hnamed hi, if_neg]
  rw [List.any_eq_true]
  rintro ⟨p, hp, hlatched⟩
  exact hl p hp hlatched

theorem tripResetCommand_latched (hl : ∃ p ∈ h.portals, s.namedLatched fire order p = true) :
    tripResetCommand seat h fire order s =
      let after := forEach h.portals (resetTrip fire order) s
      let mask := overlayMask h.portals s after false
      granted seat mask (mask != 0) after := by
  rw [tripResetCommand_inactive hr hne hnamed hi, if_pos (List.any_eq_true.mpr hl)]

end Checks

/-- Settles O52: TRIP_RESET check by check, and the Trip Unit of each named portal. -/
theorem tripResetClearsTheNamedLatches : Obligations.TripResetClearsTheNamedLatches := by
  intro seat h b s hp hb
  rw [execTripReset_run hp hb]
  intro run fire order named active latched
  refine ⟨fun hm => ?_, fun hr hne hf ho => ?_, fun p hnamed hfind => ?_, fun hnamed hi hl => ?_,
    fun hnamed hi hl hs => ?_⟩
  · exact congrArg done (tripResetCommand_malformed hm)
  · exact congrArg done (tripResetCommand_unnamed hr hne hf ho)
  · obtain ⟨hr, hne, hnamed⟩ := hnamed
    exact congrArg done (tripResetCommand_active hr hne hnamed hfind)
  · obtain ⟨hr, hne, hnamed⟩ := hnamed
    exact congrArg done (tripResetCommand_unlatched hr hne hnamed hi fun p hp hlatched =>
      hl p hp (namedLatched_iff.mp hlatched))
  · intro left mask
    obtain ⟨hr, hne, hnamed⟩ := hnamed
    obtain ⟨p, hp, hlatched⟩ := hl
    have hn := portals_nodup h
    have hmask : overlayMask h.portals s (forEach h.portals (resetTrip fire order) s) false = mask :=
      overlayMask_resetTrips fire order hn hs
    have hrun := tripResetCommand_latched (seat := seat) hr hne hnamed hi
      ⟨p, hp, namedLatched_iff.mpr hlatched⟩
    dsimp only at hrun
    rw [hmask] at hrun
    obtain ⟨hclock, hsets, hday, hports⟩ := (resetTrips_output fire order h.portals s).outside
    exact ⟨_, congrArg done hrun, fun q hq => resetTrips_tripUnit fire order hn hs hq,
      fun q hq => resetTrips_others fire order hq s, hclock, hsets, hday, hports⟩

end Sys2Proof.Machine
end

section
namespace Sys2Proof.Machine

/-! ### Frames of meter and lamp lines (R127, R180) -/

/-- A frame that the part sends adds up to 0 modulo 256. -/
theorem sum_withCheckSum (l : List Byte) : ((withCheckSum l).map BitVec.toNat).sum % 256 = 0 :=
  (sumsToZero_iff _).mp (sumsToZero_withCheckSum l)

/-- A frame of five bytes that add up to 0 modulo 256. -/
def FiveBytes (bytes : List Byte) : Prop :=
  bytes.length = 5 ∧ (bytes.map BitVec.toNat).sum % 256 = 0

theorem fiveBytes_iff {bytes : List Byte} :
    FiveBytes bytes ↔ bytes.length = 5 ∧ sumsToZero bytes = true := by
  rw [FiveBytes, sumsToZero_iff]

theorem readingFrameOf_of_good {bytes : List Byte} (h : FiveBytes bytes) :
    readingFrameOf bytes = some
      { seq := byteAt bytes 0, luminance := wordAt bytes 1, window := bitAt bytes 3 0,
        heater := bitAt bytes 3 1, sensor := bitAt bytes 3 2 } :=
  if_pos (fiveBytes_iff.mp h)

theorem readingFrameOf_of_damaged {bytes : List Byte} (h : ¬ FiveBytes bytes) :
    readingFrameOf bytes = none :=
  if_neg (fiveBytes_iff.not.mp h)

/-- The first byte of a STATUS frame is type 3 and the address, in one number. -/
theorem type_and_addr_iff (n : Nat) (a : Fin 16) : n / 16 = 3 ∧ n % 16 = a.val ↔ n = 48 + a.val := by
  omega

/-- Which bytes are an undamaged STATUS frame, and what it carries (R180). -/
theorem statusFrameOf_eq_some_iff {bytes : List Byte} {f : StatusFrame} :
    statusFrameOf bytes = some f ↔
      FiveBytes bytes ∧ byteAt bytes 0 = 48 + f.addr.val ∧ f.level ≤ 1000 ∧
        f.level = wordAt bytes 1 ∧ f.lamp = bitAt bytes 3 0 ∧ f.supply = bitAt bytes 3 1 ∧
        f.closed = bitAt bytes 3 2 := by
  rw [statusFrameOf, Option.ite_none_right_eq_some, Option.some.injEq, fiveBytes_iff]
  constructor
  · rintro ⟨⟨hlen, htype, hlevel, hsum⟩, rfl⟩
    exact ⟨⟨hlen, hsum⟩, (type_and_addr_iff _ _).mp ⟨htype, rfl⟩, hlevel, rfl, rfl, rfl, rfl⟩
  · obtain ⟨addr, level, lamp, supply, closed⟩ := f
    rintro ⟨⟨hlen, hsum⟩, hfirst, hle, rfl, rfl, rfl, rfl⟩
    obtain ⟨htype, haddr⟩ := (type_and_addr_iff _ addr).mpr hfirst
    exact ⟨⟨hlen, htype, hle, hsum⟩, by simp only [haddr]⟩

/-- Settles O38: the frames sent, the frame that received bytes are, and the undamaged frames. -/
theorem lineFramesAreAssembledFormedAndChecked :
    Obligations.LineFramesAreAssembledFormedAndChecked := by
  refine ⟨fun a level => ?_, fun first burst bytes => ?_, fun bytes => ?_⟩
  · exact ⟨⟨_, rfl⟩, ⟨_, rfl⟩, sum_withCheckSum _, sum_withCheckSum _⟩
  · rw [burst_frame_iff]
    exact and_congr_right fun h => by rw [h]
  · intro good
    refine ⟨⟨fun h => ?_, fun hgood => ?_⟩, fun hgood => readingFrameOf_of_good hgood,
      fun f => statusFrameOf_eq_some_iff⟩
    · by_contra hbad
      exact h (readingFrameOf_of_damaged hbad)
    · rw [readingFrameOf_of_good hgood]
      exact Option.some_ne_none _

end Sys2Proof.Machine
end

section
namespace Sys2Proof.Machine

/-! ### The choice of a transaction (R126, R129) -/

namespace LampLine

variable {l : LampLine}

theorem length_pollOrder (l : LampLine) : l.pollOrder.length = 16 := List.length_map _

/-- The poll order counts up from the address after the cursor, modulo 16. -/
theorem val_pollOrder (l : LampLine) {i : Nat} (h : i < l.pollOrder.length) :
    (l.pollOrder[i]).val = (l.cursor.val + 1 + i) % 16 := by
  have hi : i < 16 := by rwa [length_pollOrder] at h
  have haddr : ∀ j : Fin 16, allAddrs[j.val]'j.isLt = j := by decide
  have hget : l.pollOrder[i] = l.cursor + 1 + ⟨i, hi⟩ := by
    simp only [pollOrder, List.getElem_map]
    exact congrArg _ (haddr ⟨i, hi⟩)
  calc (l.pollOrder[i]).val = (l.cursor + 1 + ⟨i, hi⟩ : Fin 16).val := congrArg Fin.val hget
    _ = ((l.cursor.val + 1) % 16 + i) % 16 := rfl
    _ = (l.cursor.val + 1 + i) % 16 := Nat.mod_add_mod _ _ _

/-- The next poll is at the first address of the poll order that has a channel on the line. -/
theorem nextPoll_of_first {a : Fin 16} {i : Nat} {st : Station} (hi : i < 16)
    (ha : a.val = (l.cursor.val + 1 + i) % 16) (hst : rd l.stations a = some st)
    (hnone : ∀ j, j < i → ∀ b : Fin 16, b.val = (l.cursor.val + 1 + j) % 16 → rd l.stations b = none) :
    l.nextPoll = some a := by
  have hlen : i < l.pollOrder.length := by rwa [length_pollOrder]
  refine List.find?_eq_some_iff_getElem.mpr ⟨by rw [hst]; rfl, i, hlen, ?_, fun j hj => ?_⟩
  · exact Fin.ext ((l.val_pollOrder hlen).trans ha.symm)
  · rw [hnone j hj _ (l.val_pollOrder (hj.trans hlen))]
    rfl

theorem nextPoll_of_empty (h : ∀ a, rd l.stations a = none) : l.nextPoll = none :=
  List.find?_eq_none.mpr fun a _ => by simp [h a]

/-- An idle line with an empty update set polls the next channel on the line (R129). -/
theorem begin_of_poll {a : Fin 16} {st : Station} {now : Nat} (htx : l.tx = none) (h : l.updates = [])
    (hp : l.nextPoll = some a) (hst : rd l.stations a = some st) : l.begin now =
      { l with
        cursor := a
        tx := some { level := none, addr := a, channel := some st.channel, departing := none,
                     frame := pollFrame a, phase := .sending (now + frameSendMs) } } := by
  simp [begin, htx, h, hp, hst]

/-! ### A level enters an update set (R130) -/

theorem waits_of_mem {a : Fin 16} {e : Entry} (h : e ∈ l.updates) (ha : e.addr = a) :
    l.waits a = true := List.any_eq_true.mpr ⟨e, h, by simpa using ha⟩

theorem waits_eq_false {a : Fin 16} (h : ∀ e ∈ l.updates, e.addr ≠ a) : l.waits a = false :=
  List.any_eq_false.mpr fun e he => by simpa using h e he

/-- The only entry at an address takes the level in place. -/
theorem enter_in_place {a : Fin 16} {level : Nat} {c : Fin 32} {before after : List Entry} {e : Entry}
    (h : l.updates = before ++ e :: after) (ha : e.addr = a)
    (hother : ∀ x ∈ before ++ after, x.addr ≠ a) : l.enter a level c =
      { l with updates := before ++ { e with level := level, owner := some c } :: after } := by
  have stays {es : List Entry} (hes : ∀ x ∈ es, x ∈ before ++ after) :
      es.map (fun x => if x.addr = a then { x with level := level, owner := some c } else x) = es :=
    (List.map_congr_left fun x hx => if_neg (hother x (hes x hx))).trans (List.map_id' es)
  have hmem : e ∈ l.updates := h ▸ List.mem_append_right before List.mem_cons_self
  have hw : l.waits a = true := waits_of_mem hmem ha
  rw [enter, if_pos hw]
  dsimp only
  rw [h, List.map_append, List.map_cons, stays fun x hx => List.mem_append_left _ hx,
    stays fun x hx => List.mem_append_right _ hx, if_pos ha]

/-- A level for an address without an entry joins the tail. -/
theorem enter_at_tail {a : Fin 16} {level : Nat} {c : Fin 32} (h : ∀ e ∈ l.updates, e.addr ≠ a) :
    l.enter a level c =
      { l with
        updates := l.updates ++ [{ addr := a, level := level, owner := some c, departing := none }] } :=
  if_neg (by rw [waits_eq_false h]; exact Bool.false_ne_true)

end LampLine

/-- FRAME_SENT of a frame that is being sent opens the reply window (R128). -/
theorem exec_frameSent {n : Fin 4} {x : Transaction} {e : Nat} {s : State}
    (htx : (s.lampLine n).tx = some x) (hph : x.phase = .sending e) :
    exec (.frameSent n) s = .next (s.setLine n
      { s.lampLine n with tx := some { x with phase := .window (s.now + replyWindowMs) false } }) := by
  change execFrameSent n s = _
  rw [execFrameSent]
  dsimp only
  rw [htx]
  dsimp only
  rw [hph]

/-- Settles O55: the choice of a transaction, the entry of a level, and the frame sent. -/
theorem lineTransactionsBeginAndTheirFramesAreSent :
    Obligations.LineTransactionsBeginAndTheirFramesAreSent := by
  refine ⟨fun n s => ?_, fun l a level c => ⟨fun before e after => ?_, fun h => ?_⟩,
    fun n x e s htx hph => exec_frameSent htx hph⟩
  · intro l after
    have hafter : after = l.begin s.now := beginTransactions_lampLine s n
    rw [hafter]
    exact ⟨fun x htx => LampLine.begin_busy htx _,
      fun e rest htx hu => LampLine.begin_of_entry htx hu,
      fun a i st htx hu hi ha hst hnone =>
        LampLine.begin_of_poll htx hu (LampLine.nextPoll_of_first hi ha hst hnone) hst,
      fun htx hu hnone => LampLine.begin_of_nothing htx hu (LampLine.nextPoll_of_empty hnone),
      beginTransactions_rest s⟩
  · exact LampLine.enter_in_place
  · exact LampLine.enter_at_tail h

end Sys2Proof.Machine
end

section
namespace Sys2Proof.Machine

/-! ### A reply in its window (R128, R131, R180) -/

section Window

variable {n : Fin 4} {x : Transaction} {e : Nat} {heard : Bool} {burst : Burst} {f : StatusFrame}
  {s : State}

theorem awaitsFirst_of_window (htx : (s.lampLine n).tx = some x) (hph : x.phase = .window e heard) :
    (s.lampLine n).awaitsFirst = !heard := by
  rw [LampLine.awaitsFirst, htx, Option.any_some, hph]

theorem hear_of_window (htx : (s.lampLine n).tx = some x) (hph : x.phase = .window e heard) :
    hear n s = s.setLine n { s.lampLine n with tx := some { x with phase := .window e true } } := by
  rw [hear, htx]
  dsimp only
  rw [hph]

theorem hear_tx (htx : (s.lampLine n).tx = some x) (hph : x.phase = .window e heard) :
    ((hear n s).lampLine n).tx = some { x with phase := .window e true } := by
  rw [hear_of_window htx hph, lampLine_setLine]

theorem hear_now (htx : (s.lampLine n).tx = some x) (hph : x.phase = .window e heard) :
    (hear n s).now = s.now := by
  rw [hear_of_window htx hph, State.setLine_now]

/-- Outside a reply window no frame is looked at. -/
def Deaf (n : Fin 4) (s : State) : Prop :=
  ∀ x ∈ (s.lampLine n).tx, ∃ e, x.phase = .sending e

theorem Deaf.hear (h : Deaf n s) : hear n s = s := by
  unfold Machine.hear
  split
  · rfl
  · next x hx =>
    obtain ⟨e, he⟩ := h x hx
    rw [he]

theorem Deaf.takeReply (h : Deaf n s) (f : StatusFrame) : takeReply n f s = s := by
  unfold Machine.takeReply
  split
  · rfl
  · next x hx =>
    obtain ⟨e, he⟩ := h x hx
    rw [he]

theorem exec_statusReply_deaf (h : Deaf n s) (burst : Burst) :
    exec (.statusReply n burst) s = .next s := by
  change execStatusReply n burst s = _
  rw [execStatusReply, h.hear, ite_self]
  split
  · rfl
  · rw [h.takeReply]

/-- A frame with another address, or after the window's expiry, is discarded. -/
theorem takeReply_of_missed (htx : (s.lampLine n).tx = some x) (hph : x.phase = .window e heard)
    (h : f.addr ≠ x.addr ∨ e < s.now) : takeReply n f s = s := by
  rw [takeReply, htx]
  dsimp only
  rw [hph]
  exact if_neg fun ⟨ha, he⟩ => h.elim (fun hne => hne ha) (Nat.not_lt_of_le he)

theorem takeReply_of_window (htx : (s.lampLine n).tx = some x) (hph : x.phase = .window e heard)
    (he : s.now ≤ e) (ha : f.addr = x.addr) :
    takeReply n f s = beginTransactions (endTransaction n x (fun k t => replyActs k t f) s) := by
  rw [takeReply, htx]
  dsimp only
  rw [hph]
  exact if_pos ⟨ha, he⟩

theorem exec_statusReply_silent (h : burst.bytes = []) : exec (.statusReply n burst) s = .next s := by
  change execStatusReply n burst s = _
  rw [execStatusReply, if_pos h, Burst.frame, if_neg (by simp [h])]
  rfl

/-- Bytes that bring no frame for the transaction are heard. -/
theorem exec_statusReply_discarded (htx : (s.lampLine n).tx = some x) (hph : x.phase = .window e heard)
    (hb : burst.bytes ≠ []) (hf : ∀ f, (burst.frame (!heard)).bind statusFrameOf = some f →
      f.addr ≠ x.addr ∨ e < s.now) : exec (.statusReply n burst) s = .next (hear n s) := by
  change execStatusReply n burst s = _
  rw [execStatusReply, if_neg hb, awaitsFirst_of_window htx hph]
  split
  · rfl
  · next f hframe =>
    refine congrArg _ (takeReply_of_missed (hear_tx htx hph) rfl ?_)
    rw [hear_now htx hph]
    exact hf f hframe

/-- The end of a transaction does not look at the transaction that the line holds, nor at the phase of
the one that ends. -/
theorem endTransaction_setTx (n : Fin 4) (x : Transaction) (act : Circuit → Station → State → State)
    (y : Option Transaction) (φ : TxPhase) (s : State) :
    endTransaction n { x with phase := φ } act (s.setLine n { s.lampLine n with tx := y }) =
      endTransaction n x act s := by
  unfold endTransaction
  rw [lampLine_setLine, setLine_setLine]
  rfl

/-- An undamaged frame of the address that the window waits for ends the transaction. -/
theorem exec_statusReply_of_frame (htx : (s.lampLine n).tx = some x) (hph : x.phase = .window e heard)
    (he : s.now ≤ e) (hf : (burst.frame (!heard)).bind statusFrameOf = some f) (ha : f.addr = x.addr) :
    exec (.statusReply n burst) s = done (endTransaction n x (fun k t => replyActs k t f) s) := by
  have hb : burst.bytes ≠ [] := by
    obtain ⟨bytes, hframe, -⟩ := Option.bind_eq_some_iff.mp hf
    exact (burst_frame_iff.mp hframe).2.1
  change execStatusReply n burst s = _
  rw [execStatusReply, if_neg hb, awaitsFirst_of_window htx hph, hf]
  dsimp only
  rw [takeReply_of_window (hear_tx htx hph) rfl ((hear_now htx hph).trans_le he) ha,
    hear_of_window htx hph, endTransaction_setTx]
  rfl

end Window

/-! ### What a reply does to its channel (R131, R133, R135, R136) -/

/-- A line whose transaction has ended. -/
def freeLine (n : Fin 4) (s : State) : State := s.setLine n { s.lampLine n with tx := none }

theorem freeLine_stations (n : Fin 4) (s : State) :
    ((freeLine n s).lampLine n).stations = (s.lampLine n).stations := by
  rw [freeLine, lampLine_setLine]

section Reply

variable {k : Circuit} {st : Station} {f : StatusFrame} {s : State}

/-- The station of a channel that has answered. -/
def answered (k : Circuit) (st : Station) (f : StatusFrame) (s : State) : Station :=
  { st with misses := 0, status := some (f.status k.cfg.switched s.tenths) }

/-- The driver status of a reply is stored. -/
def replyStored (k : Circuit) (st : Station) (f : StatusFrame) (s : State) : State :=
  s.setLine k.portal { s.lampLine k.portal with
    stations := wr (s.lampLine k.portal).stations k.addr (some (answered k st f s)) }

/-- The LAMP and SUPPLY changes of a reply are posted, LAMP first (log 44). -/
def postFlags (k : Circuit) (st : Station) (f : StatusFrame) (s : State) : State :=
  postFlag k (st.status.any DriverStatus.supply) f.supply .supply .supply
    (postFlag k (st.status.any DriverStatus.lamp) f.lamp .lamp .lamp s)

theorem replyActs_of_lost (h : st.misses = 3) : replyActs k st f s =
    postFlags k st f (recoverChannel k (replyStored k st f s)) := by
  simp only [replyActs, h]
  rfl

theorem replyActs_of_ok (h : st.misses ≠ 3) : replyActs k st f s =
    if (s.lampLine k.portal).waits k.addr then postFlags k st f (replyStored k st f s)
    else tellZone k (if f.closed then confirmation else boostLost)
      (postFlags k st f (replyStored k st f s)) := by
  have hb : (st.misses == 3) = false := beq_eq_false_iff_ne.mpr h
  simp only [replyActs, hb]
  rfl

/-- A told flag leaves what events leave. -/
theorem postFlag_leaves {P : State → Prop} (h : KeptByPosts P) (before after : Bool) (set : FaultReason)
    (clear : OkReason) (hs : P s) : P (postFlag k before after set clear s) := by
  unfold postFlag
  split
  · exact hs
  · split
    · exact postAll_keeps h _ (by simp [Event.kind]) _ hs
    · exact postAll_keeps h _ (by simp [Event.kind]) _ hs

theorem postFlags_leaves {P : State → Prop} (h : KeptByPosts P) (hs : P s) : P (postFlags k st f s) :=
  postFlag_leaves h _ _ _ _ (postFlag_leaves h _ _ _ _ hs)

theorem tellZone_leaves {P : State → Prop} {tell : Fin 4 → Fin 5 → State → State}
    (ht : ∀ z u, P u → P (tell k.portal z u)) (hs : P s) : P (tellZone k tell s) := by
  unfold tellZone
  split
  · exact hs
  · split
    · exact ht _ _ hs
    · exact hs

/-- A reply leaves the stations as it has stored them, and everything outside the lighting. -/
theorem replyActs_leaves (k : Circuit) (st : Station) (f : StatusFrame) (s : State) :
    SameButOutput s (replyActs k st f s) ∧ ((replyActs k st f s).lampLine k.portal).stations =
      wr (s.lampLine k.portal).stations k.addr (some (answered k st f s)) := by
  have kept := stationsKept k.portal s
    (wr (s.lampLine k.portal).stations k.addr (some (answered k st f s)))
  have stored : SameButOutput s (replyStored k st f s) ∧
      ((replyStored k st f s).lampLine k.portal).stations =
        wr (s.lampLine k.portal).stations k.addr (some (answered k st f s)) :=
    ⟨rfl, by rw [replyStored, lampLine_setLine]⟩
  by_cases hm : st.misses = 3
  · rw [replyActs_of_lost hm]
    refine postFlags_leaves kept.post (testLine_keeps kept (fun b u hu => ⟨hu.1, ?_⟩) _ ?_).2
    · rw [lampLine_setLine]
      exact hu.2
    · exact enterLevel_keeps kept.toKeptByLight k rfl _
        (postAll_keeps kept.post _ (by simp [Event.kind]) _ stored)
  · rw [replyActs_of_ok hm]
    have told := postFlags_leaves (k := k) (st := st) (f := f) kept.post stored
    split
    · exact told
    · refine tellZone_leaves (P := fun u => SameButOutput s u ∧ (u.lampLine k.portal).stations =
        wr (s.lampLine k.portal).stations k.addr (some (answered k st f s))) (fun z u hu => ?_) told
      split
      · exact confirmation_keeps kept.toKeptByLight kept.post z u hu
      · exact boostLost_keeps kept.toKeptByLight kept.post z u hu

end Reply

/-- Settles O56: the reply in its window, and the frames that are discarded. -/
theorem replyStoresTheDriverStatus : Obligations.ReplyStoresTheDriverStatus := by
  refine ⟨fun n x e heard burst f k st s htx hph he hdep hf ha htarget => ?_, fun n burst s => ?_⟩
  · obtain ⟨-, rfl, haddr, -⟩ := txTarget_spec htarget
    intro status station stored waits told flagged run
    have hrun : run = done (replyActs k st f (freeLine k.portal s)) :=
      (exec_statusReply_of_frame htx hph he hf ha).trans
        (congrArg done (endTransaction_of_target _ hdep htarget))
    have hstored : replyStored k st f (freeLine k.portal s) = stored := by
      rw [replyStored, freeLine, lampLine_setLine, setLine_setLine, haddr]
      rfl
    have hwaits : ((freeLine k.portal s).lampLine k.portal).waits k.addr = waits := by
      rw [freeLine, lampLine_setLine, haddr]
      rfl
    refine ⟨?_, fun hm hor => ?_, fun z hm hs hz hw => ?_, fun hm => ?_⟩
    · obtain ⟨hout, hstations⟩ := replyActs_leaves k st f (freeLine k.portal s)
      have hsame : SameButOutput s (freeLine k.portal s) := rfl
      obtain ⟨hclock, hsets, hday, hports⟩ := (hsame.trans hout).outside.begun
      obtain ⟨hothers, -⟩ := statusReply_stays k.portal s burst _ hrun
      rw [freeLine_stations, haddr] at hstations
      refine ⟨_, hrun, ?_, fun a hne => ?_, fun q hq => (hothers q hq).1, hclock, hsets, hday, hports⟩
      · rw [beginTransactions_lampLine, LampLine.begin_stations, hstations, rd_wr_self]
        rfl
      · rw [beginTransactions_lampLine, LampLine.begin_stations, hstations, rd_wr_of_ne _ _ hne.symm]
    · rw [hrun, replyActs_of_ok hm, hwaits, hstored]
      rcases hor with hs | hn | hw
      · rw [tellZone_of_other (Or.inl hs), ite_self]
        rfl
      · rw [tellZone_of_other (Or.inr hn), ite_self]
        rfl
      · rw [if_pos hw]
        rfl
    · rw [hrun, replyActs_of_ok hm, hwaits, hstored, hw, tellZone_of_switched hz hs]
      cases f.closed <;> rfl
    · rw [hrun, replyActs_of_lost hm, hstored]
      rfl
  · intro run
    refine ⟨fun htx => ?_, fun x e htx hph => ?_, fun x e heard htx hph =>
      ⟨exec_statusReply_silent, fun hb hf => ?_⟩⟩
    · exact exec_statusReply_deaf (fun x hx => by rw [htx] at hx; cases hx) burst
    · refine exec_statusReply_deaf (fun y hy => ⟨e, ?_⟩) burst
      rw [htx] at hy
      cases hy
      exact hph
    · rw [← hear_of_window htx hph]
      exact exec_statusReply_discarded htx hph hb hf

end Sys2Proof.Machine
end

section
namespace Sys2Proof.Machine

/-! ### A farewell completes (R138) -/

section Farewell

variable {n : Fin 4} {a : Fin 16} {c : Fin 32} {s : State} {k : Circuit} {d : Departed}

/-- What the line held for the departing channel is dropped. -/
def farewellDropped (n : Fin 4) (a : Fin 16) (c : Fin 32) (s : State) : State :=
  s.setLine n ((s.lampLine n).dropDeparted a c)

theorem departsAgain_iff {l : LampLine} : l.departsAgain a c = true ↔
    ∃ d ∈ l.departed, d.names a c = true ∧ d.later = true := by
  simp only [LampLine.departsAgain, List.any_eq_true, Bool.and_eq_true]

/-- The newest record of the channel at the address says what the channel was. -/
theorem wasReplaced_of_newest {l : LampLine}
    (h : (l.departed.filter fun d => d.names a c).getLast? = some d) :
    l.wasReplaced a c = d.replaced := by
  rw [List.getLast?_filter] at h
  rw [LampLine.wasReplaced, h, Option.any_some]

/-- A channel that waits for another farewell, or for a later one here, waits on (logs 18, 28). -/
theorem completeFarewell_of_other (h : (s.channel c).farewell ≠ some (n, a) ∨
    (s.lampLine n).departsAgain a c = true) :
    completeFarewell n a c s = farewellDropped n a c s := by
  refine if_neg fun ⟨hwaits, hlast⟩ => ?_
  rcases h with h | h
  · exact h hwaits
  · rw [h] at hlast
    cases hlast

section Awaited

variable (hf : (s.channel c).farewell = some (n, a)) (hl : (s.lampLine n).departsAgain a c = false)
  (hd : ((s.lampLine n).departed.filter fun d => d.names a c).getLast? = some d)
include hf hl hd

/-- A channel that left becomes unassigned. -/
theorem completeFarewell_of_left (hr : d.replaced = false) (hc : s.assignment c = none) :
    completeFarewell n a c s = (farewellDropped n a c s).setChannel c Channel.unassigned := by
  rw [completeFarewell, if_pos ⟨hf, hl⟩, wasReplaced_of_newest hd, hr, if_neg Bool.false_ne_true]
  exact if_pos hc

/-- A replaced channel takes up its new address. -/
theorem completeFarewell_of_replaced (hr : d.replaced = true) (hk : (s.set n).find n c = some k) :
    completeFarewell n a c s = enterLevel k
      ((s.setChannel c { s.channel c with farewell := none }).setLine n
        (((s.lampLine n).dropDeparted a c).station k.addr c (s.lampLine n).down)) := by
  have htake : completeFarewell n a c s = takeUpAddress n c (farewellDropped n a c s) := by
    rw [completeFarewell, if_pos ⟨hf, hl⟩, wasReplaced_of_newest hd, hr, if_pos rfl]
    rfl
  have hfind : ((farewellDropped n a c s).set n).find n c = some k := hk
  rw [htake, takeUpAddress, hfind, farewellDropped, lampLine_setLine]
  dsimp only
  have hcomm (x : Channel) (l m : LampLine) :
      ((s.setLine n l).setChannel c x).setLine n m = (s.setChannel c x).setLine n m := by
    simp only [State.setLine, State.setChannel, wr_wr]
  exact congrArg (enterLevel k) (hcomm _ _ _)

end Awaited

theorem enterLevel_of_none (h : (s.channel k.cfg.channel).level = none) : enterLevel k s = s := by
  rw [enterLevel, h]

theorem enterLevel_of_some {level : Nat} (h : (s.channel k.cfg.channel).level = some level) :
    enterLevel k s =
      s.setLine k.portal ((s.lampLine k.portal).enter k.addr level k.cfg.channel) := by
  rw [enterLevel, h]

end Farewell

/-! ### The end of a transaction with a farewell (R138, R139) -/

section Ends

variable {n : Fin 4} {x : Transaction} {c : Fin 32} {act : Circuit → Station → State → State} {s : State}

/-- A transaction of no channel on the line belongs to none. -/
theorem txTarget_of_no_channel (h : x.channel = none) : s.txTarget n x = none := by
  rw [State.txTarget, h]
  split
  · exact if_neg (by simp)
  · rfl

/-- The transaction without the farewell that its frame carries. -/
def withoutFarewell (x : Transaction) : Transaction := { x with departing := none }

/-- The farewell completes after the reply or the miss has acted on the owner (logs 13, 51). -/
theorem endTransaction_of_farewell (h : x.departing = some c) : endTransaction n x act s =
    completeFarewell n x.addr c (endTransaction n (withoutFarewell x) act s) := by
  rw [endTransaction, h]
  rfl

/-- Where it belongs to no channel, its end frees the line and does no more. -/
theorem endTransaction_of_no_channel (hc : x.channel = none) (hd : x.departing = none) :
    endTransaction n x act s = freeLine n s := by
  rw [endTransaction, txTarget_of_no_channel hc, hd]
  rfl

/-- The end of transaction `x` of line `n` by an event: what it does to the owner of the frame's level,
and the farewell that it completes. -/
def EndsWithFarewell (n : Fin 4) (x : Transaction) (s : State) (i : Instr) : Prop :=
  (x.channel = none → x.departing = none → exec i s = done (freeLine n s)) ∧
  (∀ c, x.channel = none → x.departing = some c →
    exec i s = done (completeFarewell n x.addr c (freeLine n s))) ∧
  (∀ c, x.departing = some c → ∃ u,
    exec i (s.setLine n { s.lampLine n with tx := some (withoutFarewell x) }) = done u ∧
      exec i s = done (completeFarewell n x.addr c u))

/-- An event that ends the transaction in both states ends it as R138 and R139 say. -/
theorem endsWithFarewell {i : Instr} (act : Circuit → Station → State → State)
    (hs : exec i s = done (endTransaction n x act s))
    (hown : exec i (s.setLine n { s.lampLine n with tx := some (withoutFarewell x) }) =
      done (endTransaction n (withoutFarewell x) act
        (s.setLine n { s.lampLine n with tx := some (withoutFarewell x) }))) :
    EndsWithFarewell n x s i := by
  refine ⟨fun hc hd => ?_, fun c hc hd => ?_, fun c hd => ?_⟩
  · rw [hs, endTransaction_of_no_channel hc hd]
  · rw [hs, endTransaction_of_farewell hd, endTransaction_of_no_channel (x := withoutFarewell x) hc rfl]
  · refine ⟨_, hown, ?_⟩
    rw [hs, endTransaction_of_farewell hd]
    exact congrArg (fun u => done (completeFarewell n x.addr c u))
      (endTransaction_setTx n (withoutFarewell x) act _ x.phase s).symm

end Ends

/-- Settles O58: the completion of a farewell, and the ends of transactions that complete one. -/
theorem farewellsCompleteWithTheirTransactions :
    Obligations.FarewellsCompleteWithTheirTransactions := by
  refine ⟨fun n a c s => ?_, fun n x e heard burst f s htx hph => ?_⟩
  · intro l named remains dropped
    refine ⟨fun h => completeFarewell_of_other (h.imp_right departsAgain_iff.mpr), fun d hf hlast hd => ?_⟩
    have hl : l.departsAgain a c = false := Bool.eq_false_iff.mpr fun h => by
      obtain ⟨y, hy, hn, hlater⟩ := departsAgain_iff.mp h
      rw [hlast y hy hn] at hlater
      cases hlater
    refine ⟨completeFarewell_of_left hf hl hd, fun k hr hk => ?_⟩
    intro arrived taken
    have hrun := completeFarewell_of_replaced hf hl hd hr hk
    obtain rfl := circuit_portal (mem_of_find hk)
    obtain rfl := channel_of_find hk
    have hlevel (m : LampLine) : ((arrived.setLine k.portal m).channel k.cfg.channel).level =
        (s.channel k.cfg.channel).level := by
      rw [State.channel, State.setLine_channels, State.setChannel_channels, rd_wr_self]
    refine ⟨fun level hlev => ?_, fun hlev => ?_⟩
    · rw [hrun, enterLevel_of_some ((hlevel _).trans hlev), lampLine_setLine, setLine_setLine]
      rfl
    · rw [hrun, enterLevel_of_none ((hlevel _).trans hlev)]
      rfl
  · intro free own ends
    have hown : (own.lampLine n).tx = some (withoutFarewell x) := by rw [lampLine_setLine]; rfl
    exact ⟨fun he hf ha => endsWithFarewell _ (exec_statusReply_of_frame htx hph he hf ha)
        (exec_statusReply_of_frame hown hph he hf ha),
      fun he => endsWithFarewell _ (exec_replyWindowExpiry htx hph he)
        (exec_replyWindowExpiry hown hph he)⟩

end Sys2Proof.Machine
end

section
namespace Sys2Proof.Machine

/-! ### Commands that no frame awaits (log 9) -/

theorem withRecord_outside {seat : Seat} {n : Nat} {bytes : List Byte} {s : State}
    (h : (s.port seat).phase ≠ .header) (run : State → State) : withRecord seat n bytes s run = s := by
  unfold withRecord
  split
  · exact inHeader_outside h run
  · rfl

theorem withRecord_of_length {seat : Seat} {n : Nat} {bytes : List Byte} (h : bytes.length ≠ n)
    (s : State) (run : State → State) : withRecord seat n bytes s run = s := if_neg h

/-- The commands that the codes 0 to 19 name, in the order of R177. -/
def commandTable (seat : Seat) (h : Header) (record : List Byte) : List Instr :=
  [.nop seat, .read seat h, .write seat h record, .pushClaim seat h record,
   .withdraw seat h record, .withdrawAny seat h record, .takeChannel seat h record,
   .setChannel seat h record, .releaseChannel seat h record, .trip seat h record,
   .tripReset seat h record, .takeGrant seat h, .seizeGrant seat h, .releaseGrant seat h,
   .commit seat h, .discard seat h, .store seat, .setSeat seat h record,
   .clearCondition seat, .restart seat]

theorem commandOf_eq_table (seat : Seat) (code : Byte) (h : Header) (record : List Byte) :
    commandOf seat code h record =
      (commandTable seat h record)[code.toNat]?.getD (.badCommand seat code) := by
  unfold commandOf
  match code.toNat with
  | 0 | 1 | 2 | 3 | 4 | 5 | 6 | 7 | 8 | 9 | 10 | 11 | 12 | 13 | 14 | 15 | 16 | 17 | 18 | 19 => rfl
  | _ + 20 => rfl

/-- The codes below 20 name a command (R177). -/
theorem namesCommand_used {code : Byte} (h : code.toNat < 20) : namesCommand code = true := by
  rw [namesCommand, bne_iff_ne, commandOf_eq_table,
    List.getElem?_eq_getElem (by simpa [commandTable] using h), Option.getD_some]
  intro he
  have hmem := he ▸ List.getElem_mem _
  simp [commandTable] at hmem

theorem exec_badCommand_of_named {seat : Seat} {code : Byte} (h : code.toNat < 20) (s : State) :
    exec (.badCommand seat code) s = .next s := if_pos (namesCommand_used h)

theorem exec_badCommand_of_unnamed {seat : Seat} {code : Byte} (h : 20 ≤ code.toNat) (s : State) :
    exec (.badCommand seat code) s = .next (inHeader seat s fun s =>
      endCommand seat .badCommand 0 (s.port seat).condition.clearedA s) :=
  if_neg (by simp [namesCommand_unused h])

/-- Settles O6: each command runs through `inHeader` or `withRecord`. -/
theorem seatCommandsOutsideTheirFrameDoNothing :
    Obligations.SeatCommandsOutsideTheirFrameDoNothing := by
  intro seat h b code s
  refine ⟨fun hp => ⟨fun i hi => ?_, fun i hi => ?_, fun i hi => ?_⟩,
    fun hc => exec_badCommand_of_named hc s, fun hp => if_neg hp, fun hp cut => ?_,
    fun hb => ?_, fun hb => ?_, fun hb => congrArg done (withRecord_of_length hb s _)⟩
  · have hnext (run : State → State) :
        .next (inHeader seat s run) = (.next s : Host.Outcome State Fault Refusal) :=
      congrArg _ (inHeader_outside hp run)
    have hbad : exec (.badCommand seat code) s = .next s := by
      rcases Nat.lt_or_ge code.toNat 20 with hc | hc
      · exact exec_badCommand_of_named hc s
      · rw [exec_badCommand_of_unnamed hc, hnext]
    revert i
    simp only [List.forall_mem_cons, List.not_mem_nil, false_imp_iff, implies_true, and_true]
    exact ⟨hbad, hnext _, hnext _, hnext _, hnext _, hnext _, hnext _, hnext _, hnext _, hnext _⟩
  · have hdone (n : Nat) (run : State → State) : done (withRecord seat n b s run) = done s :=
      congrArg done (withRecord_outside hp run)
    revert i
    simp only [List.forall_mem_cons, List.not_mem_nil, false_imp_iff, implies_true, and_true]
    exact ⟨hdone 8 _, hdone 2 _, hdone 4 _, hdone 4 _, hdone 4 _, hdone 2 _, hdone 2 _, hdone 4 _,
      congrArg done (inHeader_outside hp _)⟩
  · revert i
    simp only [List.forall_mem_cons, List.not_mem_nil, false_imp_iff, implies_true, and_true]
    by_cases hl : seat = .L
    · rw [if_pos hl]
      exact ⟨(if_neg (not_not_intro hl)).trans (congrArg done (withRecord_outside hp _)),
        (if_neg (not_not_intro hl)).trans (congrArg done (inHeader_outside hp _))⟩
    · rw [if_neg hl]
      exact ⟨(if_pos hl).trans (congrArg _ (inHeader_outside hp _)),
        (if_pos hl).trans (congrArg _ (inHeader_outside hp _))⟩
  · change Host.Outcome.next (endFrame seat cut s) = _
    rw [endFrame, hp]
  · exact ⟨congrArg done (withRecord_of_length hb s _), congrArg done (withRecord_of_length hb s _),
      congrArg done (withRecord_of_length hb s _)⟩
  · exact ⟨congrArg done (withRecord_of_length hb s _), congrArg done (withRecord_of_length hb s _),
      congrArg done (withRecord_of_length hb s _), congrArg done (withRecord_of_length hb s _)⟩

end Sys2Proof.Machine
end

section
namespace Sys2Proof.Machine

/-! ### Seat ports and the end of a frame (R142, R151, R152) -/

section Ports

variable (seat : Seat) (x y : SeatPort) (s : State)

theorem port_setPort_same : (s.setPort seat x).port seat = x := rd_wr_self _ _ _

theorem setPort_self : s.setPort seat (s.port seat) = s := by rw [State.setPort, State.port, wr_rd_self]

theorem setPort_setPort : (s.setPort seat x).setPort seat y = s.setPort seat y := by
  rw [State.setPort, State.setPort_ports, wr_wr]
  rfl

end Ports

/-- A state that differs in the queues alone is the old one with the new queues. -/
theorem SameButQueues.eq_with {s u : State} (h : SameButQueues s u) : u = { s with queues := u.queues } :=
  congrArg (fun v : State => { v with queues := u.queues }) h

section LeaveFrame

variable (seat : Seat) (x : SeatPort) (s : State)

theorem leaveFrame_incomplete : leaveFrame seat false (s.setPort seat x) =
    s.setPort seat { x with phase := .idle, out := [] } := by
  rw [leaveFrame, if_neg Bool.false_ne_true, setPhase, port_setPort_same, setPort_setPort]

/-- The seats that are told of a frame that brings a seat back: the other two (R152). -/
def SeatPort.resumes (x : SeatPort) (seat y : Seat) : List Event :=
  if x.silent = true ∧ y ≠ seat then [.seatResumed seat] else []

/-- The port at the end of a complete frame, its phase and bytes apart. -/
def SeatPort.returned (x : SeatPort) (time : Nat) : SeatPort :=
  { x with
    silent := false, lastComplete := some time
    deadline := if x.timeout = 0 then none else some (time + 10 * x.timeout) }

theorem completeFrame_eq : completeFrame seat (s.setPort seat x) =
    if x.silent then postOthers seat (.seatResumed seat) (s.setPort seat (x.returned s.tenths))
    else s.setPort seat (x.returned s.tenths) := by
  rw [completeFrame, port_setPort_same, setPort_setPort]
  rfl

theorem completeFrame_rest :
    SameButQueues (s.setPort seat (x.returned s.tenths)) (completeFrame seat (s.setPort seat x)) := by
  rw [completeFrame_eq]
  split
  · exact postOthers_keeps (P := SameButQueues _) (fun _ _ _ _ h => h) seat _ (by simp [Event.kind]) _ rfl
  · rfl

theorem completeFrame_queue (y : Seat) : (completeFrame seat (s.setPort seat x)).queue y =
    (x.resumes seat y).foldl (fun q e => q.place e s.uptime) (s.queue y) := by
  rw [completeFrame_eq]
  cases hx : x.silent with
  | false =>
    rw [SeatPort.resumes, hx]
    simp only [Bool.false_eq_true, false_and, if_false]
    rfl
  | true =>
    rw [if_pos rfl, postOthers_queue, SeatPort.resumes, hx]
    simp only [true_and, ite_not]
    rfl

/-- The release of select in a complete frame writes the seat's port, and tells of its return. -/
theorem leaveFrame_complete : ∃ queues,
    leaveFrame seat true (s.setPort seat x) =
      { s.setPort seat (x.completed s.tenths) with queues := queues } ∧
    ∀ y, rd queues (seatIx y) = (x.resumes seat y).foldl (fun q e => q.place e s.uptime) (s.queue y) := by
  refine ⟨(completeFrame seat (s.setPort seat x)).queues, ?_, completeFrame_queue seat x s⟩
  rw [leaveFrame, if_pos rfl, (completeFrame_rest seat x s).eq_with, setPhase]
  have hport : rd (wr s.ports (seatIx seat) (x.returned s.tenths)) (seatIx seat) = x.returned s.tenths :=
    rd_wr_self _ _ _
  simp only [State.setPort, State.port, hport, wr_wr]
  rfl

/-- What the end of a complete frame does to the part. -/
def FrameCompleted (seat : Seat) (x : SeatPort) (s t : State) : Prop :=
  t.port seat = x.completed s.tenths ∧ SameInside s t ∧ SameOtherPorts seat s t

theorem leaveFrame_completed : FrameCompleted seat x s (leaveFrame seat true (s.setPort seat x)) := by
  obtain ⟨queues, ht, -⟩ := leaveFrame_complete seat x s
  rw [ht]
  refine ⟨rd_wr_self _ _ _, ?_, fun y hy => ?_⟩
  · exact ⟨⟨rfl, rfl, rfl, rfl, rfl, rfl⟩, ⟨rfl, rfl, rfl, rfl⟩,
      ⟨rfl, ⟨rfl, rfl⟩, rfl, rfl, rfl⟩, ⟨rfl, rfl⟩, rfl, Or.inl rfl⟩
  · exact (port_setPort s seat y _).trans (if_neg (Ne.symm hy))

end LeaveFrame

section FrameEnd

variable {seat : Seat} {s : State}

theorem exec_frameEnd_tail (h : (s.port seat).phase = .tail) (cut : Cut) :
    exec (.frameEnd seat cut) s = .next (leaveFrame seat true s) := by
  change Host.Outcome.next (endFrame seat cut s) = _
  rw [endFrame, h]

theorem exec_frameEnd_header (h : (s.port seat).phase = .header) (cut : Cut) :
    exec (.frameEnd seat cut) s = .next (endInHeader seat cut s) := by
  change Host.Outcome.next (endFrame seat cut s) = _
  rw [endFrame, h]

theorem exec_frameEnd_reading {x : Transfer} {shot : Option (List Byte)}
    (h : (s.port seat).phase = .reading x shot) (cut : Cut) :
    exec (.frameEnd seat cut) s = .next (leaveFrame seat (cut == .boundary) (endRead seat .ok x.done s)) := by
  change Host.Outcome.next (endFrame seat cut s) = _
  rw [endFrame, h]

theorem exec_frameEnd_writing {x : Transfer} (h : (s.port seat).phase = .writing x) (cut : Cut) :
    exec (.frameEnd seat cut) s = .next (leaveFrame seat (cut == .boundary) (endWrite seat .ok x.done s)) := by
  change Host.Outcome.next (endFrame seat cut s) = _
  rw [endFrame, h]

/-- A transfer that the release of select ends: only at a record boundary is the frame complete. -/
theorem leaveFrame_of_cut (cut : Cut) (x : SeatPort) :
    (cut ≠ .boundary → leaveFrame seat (cut == .boundary) (s.setPort seat x) =
      s.setPort seat { x with phase := .idle, out := [] }) ∧
    (cut = .boundary →
      FrameCompleted seat x s (leaveFrame seat (cut == .boundary) (s.setPort seat x))) := by
  refine ⟨fun h => ?_, fun h => ?_⟩
  · rw [beq_false_of_ne h, leaveFrame_incomplete]
  · rw [beq_iff_eq.mpr h]
    exact leaveFrame_completed seat x s

end FrameEnd

/-! ### The header checks that READ and WRITE share (R143) -/

section HeaderChecks

variable {h : Header} {range : Nat}

theorem transferOf_badValue (hb : h.stepping = none ∨ h.records = 0) :
    transferOf h range = .error .badValue := by
  unfold transferOf
  split
  · rfl
  · next x hx => exact if_pos (hb.resolve_left (by simp [hx]))

theorem transferOf_badIndex (hs : h.stepping ≠ none) (hr : h.records ≠ 0) (hi : range ≤ h.index) :
    transferOf h range = .error .badIndex := by
  unfold transferOf
  split
  · next hx => exact absurd hx hs
  · rw [if_neg hr, if_pos hi]

theorem transferOf_ok {x : Stepping} (hs : h.stepping = some x) (hr : h.records ≠ 0) (hi : h.index < range) :
    transferOf h range = .ok { cls := h.cls, owner := h.owner, index := h.index, stepping := x,
                               left := h.records, done := 0 } := by
  unfold transferOf
  rw [hs]
  dsimp only
  rw [if_neg hr, if_neg (Nat.not_le.mpr hi)]

theorem classExists_iff (cls owner : Nat) : classExists cls owner = true ↔
    ¬ (24 ≤ cls ∨ (cls ∈ [8, 9, 18, 19, 22, 23] ∧ 4 ≤ owner)) := by
  simp only [classExists, portalListClass, Bool.and_eq_true, Bool.not_eq_true', decide_eq_true_eq,
    ← Bool.not_eq_true, List.contains_iff_mem]
  rw [not_or, Nat.not_le, Nat.lt_succ_iff]
  rfl

theorem writable_iff (cls owner : Nat) : (classExists cls owner && classWritable cls) = true ↔
    ¬ (cls < 16 ∨ 20 ≤ cls ∨ (18 ≤ cls ∧ 4 ≤ owner)) := by
  rw [Bool.and_eq_true, classExists_iff, classWritable, decide_eq_true_eq]
  simp only [List.mem_cons, List.not_mem_nil, or_false]
  omega

theorem shadowRange_eq (cls : Nat) :
    shadowRange cls = if cls = 18 then 12 else if cls = 19 then 16 else 4 := by
  unfold shadowRange
  split
  · rfl
  · rfl
  · next h18 h19 => rw [if_neg h18, if_neg h19]

theorem writeTransfer_badObject (hc : h.cls < 16 ∨ 20 ≤ h.cls ∨ (18 ≤ h.cls ∧ 4 ≤ h.owner)) :
    writeTransfer h = .error .badObject :=
  if_neg fun hw => (writable_iff _ _).mp hw hc

theorem writeTransfer_writable (hc : ¬ (h.cls < 16 ∨ 20 ≤ h.cls ∨ (18 ≤ h.cls ∧ 4 ≤ h.owner))) :
    writeTransfer h = transferOf h (shadowRange h.cls) :=
  if_pos ((writable_iff _ _).mpr hc)

/-- The code with which R143 refuses the header of a WRITE. -/
theorem headerRefusal_write (seat : Seat) (h : Header) :
    headerRefusal seat .write h =
      (if h.cls < 16 ∨ 20 ≤ h.cls ∨ (18 ≤ h.cls ∧ 4 ≤ h.owner) then some .badObject
       else if h.stepping = none ∨ h.records = 0 then some .badValue
       else if shadowRange h.cls ≤ h.index then some .badIndex
       else none) := by
  unfold headerRefusal
  dsimp only
  split_ifs with hc hb hi
  · rw [writeTransfer_badObject hc]
  · rw [writeTransfer_writable hc, transferOf_badValue hb]
  · obtain ⟨hs, hr⟩ := not_or.mp hb
    rw [writeTransfer_writable hc, transferOf_badIndex hs hr hi]
  · obtain ⟨hs, hr⟩ := not_or.mp hb
    obtain ⟨x, hx⟩ := Option.ne_none_iff_exists'.mp hs
    rw [writeTransfer_writable hc, transferOf_ok hx hr (Nat.not_le.mp hi)]

end HeaderChecks

section Header

variable {seat : Seat} {s : State}

/-- The port of a frame that was cut off in its header (R144). -/
def SeatPort.cutShort (x : SeatPort) : SeatPort :=
  { x with
    code := .short, value := 0, phase := .idle, out := []
    condition := { x.condition with a := false } }

theorem endInHeader_boundary : endInHeader seat .boundary s =
    s.setPort seat { s.port seat with phase := .idle, out := [] } := rfl

theorem endInHeader_inside : endInHeader seat .inside s = s.setPort seat (s.port seat).cutShort :=
  leaveFrame_incomplete seat _ s

variable {c : RecordCommand} {h : Header}

theorem endInHeader_firstRecord (hr : headerRefusal seat c h = none) (n : Nat) :
    endInHeader seat (.firstRecord c h n) s = leaveFrame seat (n == 0) (endShort seat s) := by
  rw [endInHeader, hr]

theorem endInHeader_refused {code : ResultCode} (hr : headerRefusal seat c h = some code) (n : Nat) :
    endInHeader seat (.firstRecord c h n) s = leaveFrame seat true (denied seat code 0 s) := by
  rw [endInHeader, hr]
  rfl

end Header

/-- Settles O8: the release of select by the phase of the port. -/
theorem releaseOfSelectEndsTheFrame : Obligations.ReleaseOfSelectEndsTheFrame := by
  refine ⟨fun seat h => ⟨?_, ?_, fun c hw ha => ?_⟩, fun seat cut s hp => ?_,
    fun seat s hp => ?_, fun seat x cut s => ⟨fun shot hp => ?_, fun hp => ?_⟩⟩
  · rw [headerRefusal_write, shadowRange_eq]
  · cases seat <;> rfl
  · cases c with
    | write => exact absurd rfl hw
    | withdrawAny => exact absurd rfl ha
    | _ => rfl
  · have hself := setPort_self seat s
    obtain ⟨hport, hin, hother⟩ := hself ▸ leaveFrame_completed seat (s.port seat) s
    obtain ⟨queues, ht, hq⟩ := hself ▸ leaveFrame_complete seat (s.port seat) s
    refine ⟨_, exec_frameEnd_tail hp cut, hport, ?_, fun y hy => ?_, hin, hother⟩
    · rw [ht]
      exact (hq seat).trans (by rw [SeatPort.resumes, if_neg (fun h => h.2 rfl)]; rfl)
    · rw [ht]
      refine (hq y).trans ?_
      cases hs : (s.port seat).silent <;> simp [SeatPort.resumes, hs, hy]
  · intro short
    refine ⟨exec_frameEnd_header hp _, (exec_frameEnd_header hp _).trans (congrArg _ endInHeader_inside),
      fun c h n hr hn => ?_, fun c h hr => ?_, fun c h n code hr => ?_⟩
    · rw [exec_frameEnd_header hp, endInHeader_firstRecord hr, beq_false_of_ne hn]
      exact congrArg _ (leaveFrame_incomplete seat _ s)
    · rw [exec_frameEnd_header hp, endInHeader_firstRecord hr]
      exact ⟨_, rfl, leaveFrame_completed seat _ s⟩
    · rw [exec_frameEnd_header hp, endInHeader_refused hr]
      refine ⟨_, rfl, ?_⟩
      have hport : (denied seat code 0 s).port seat = _ := port_setPort_same seat _ s
      rw [hport]
      exact leaveFrame_completed seat _ s
  · obtain ⟨hcut, hwhole⟩ := leaveFrame_of_cut (seat := seat) (s := s) cut
      { s.port seat with
        code := .ok, value := x.done, condition := { (s.port seat).condition with a := true }
        phase := .tail, out := [] }
    exact ⟨fun h => (exec_frameEnd_reading hp cut).trans (congrArg _ (hcut h)),
      fun h => ⟨_, exec_frameEnd_reading hp cut, hwhole h⟩⟩
  · obtain ⟨hcut, hwhole⟩ := leaveFrame_of_cut (seat := seat) (s := s) cut
      { s.port seat with
        code := .ok, value := x.done
        condition := { a := true, c := decide (0 < x.done), l := (s.port seat).condition.l, p := false }
        phase := .tail, out := [] }
    exact ⟨fun h => (exec_frameEnd_writing hp cut).trans (congrArg _ (hcut h)),
      fun h => ⟨_, exec_frameEnd_writing hp cut, hwhole h⟩⟩

end Sys2Proof.Machine
end

section
namespace Sys2Proof.Machine

/-! ### Preambles, codes and masks (R142, R177) -/

theorem maskOf_eq_ofBits (l : List (Fin 4)) : maskOf l = Nat.ofBits fun p : Fin 4 => l.contains p := by
  have hbits (f : Fin 4 → Bool) :
      allPortals.foldl (fun acc p => acc + if f p then 2 ^ p.val else 0) 0 = Nat.ofBits f := by
    revert f
    decide
  exact hbits fun p => l.contains p

/-- The bits of a mask below 4 are those of its portals (R177). -/
theorem maskOf_testBit (l : List (Fin 4)) (n : Nat) :
    (maskOf l).testBit n = true ↔ ∃ p ∈ l, p.val = n := by
  rw [maskOf_eq_ofBits]
  rcases Nat.lt_or_ge n 4 with hn | hn
  · rw [Nat.testBit_ofBits_lt _ _ hn, List.contains_iff_mem]
    exact ⟨fun h => ⟨_, h, rfl⟩, fun ⟨p, hp, he⟩ => Fin.eq_mk_iff_val_eq.mpr he ▸ hp⟩
  · rw [Nat.testBit_ofBits_ge _ _ hn]
    exact iff_of_false Bool.false_ne_true fun ⟨p, _, he⟩ => absurd (he ▸ p.isLt) (Nat.not_lt.mpr hn)

theorem stepping_of_code {h : Header} :
    (h.place.toNat / 64 = 0 → h.stepping = some .ascend) ∧
    (h.place.toNat / 64 = 1 → h.stepping = some .descend) ∧
    (h.place.toNat / 64 = 2 → h.stepping = some .hold) ∧
    (h.place.toNat / 64 = 3 → h.stepping = none) := by
  refine ⟨fun hc => ?_, fun hc => ?_, fun hc => ?_, fun hc => ?_⟩ <;> rw [Header.stepping, hc] <;> rfl

/-- Settles O7: the preamble, the tables of R177, and the commands that end at their header. -/
theorem framesBeginAndSimpleCommandsEnd : Obligations.FramesBeginAndSimpleCommandsEnd := by
  refine ⟨⟨fun seat s hp => if_pos hp, fun x n => ⟨fun b => shiftedOut_held, shiftedOut_filler⟩,
    fun seat code target place count record => congrArg some (commandOf_eq_table seat code _ record),
    rfl, fun target place count => ⟨rfl, rfl, rfl, rfl, ?_⟩, maskOf_testBit,
    fun seat code s hp hc => ?_⟩, fun seat s hp => ⟨?_, ?_, ?_⟩⟩
  · obtain ⟨hascend, hdescend, hhold, hnone⟩ :=
      stepping_of_code (h := { target := target, place := place, count := count })
    exact ⟨hascend, hdescend, hhold, hnone, rfl⟩
  · rw [exec_badCommand_of_unnamed hc, inHeader_run hp]
    rfl
  · exact congrArg _ (inHeader_run hp _)
  · exact congrArg _ ((inHeader_run hp _).trans (accept_eq_granted _ _ _ _))
  · have hport : (answer seat .ok 0 true false (s.port seat).condition.l false s).port seat = _ :=
      port_setPort_same seat _ s
    obtain ⟨hdone, -⟩ := leaveFrame_completed seat _ s
    refine ⟨_, exec_frameEnd_tail (by rw [hport]) .boundary, ?_⟩
    rw [answer, hdone]
    exact ⟨rfl, rfl, rfl⟩

end Sys2Proof.Machine
end

section
namespace Sys2Proof.Machine

/-! ### SET_SEAT (R153) -/

section SetSeat

variable {seat : Seat} {h : Header} {timeout mask : Nat} {s : State}

theorem setSeatValues_port : (setSeatValues seat timeout mask s).port seat =
    { s.port seat with
      timeout := timeout
      deadline := if timeout = 0 then none else some ((s.port seat).lastComplete.getD 0 + 10 * timeout) } :=
  port_setPort_same seat _ s

theorem setSeatCommand_accepted (hr : h.records = 1) (ht : timeout ≤ 600) :
    setSeatCommand seat h timeout mask s = granted seat 0 false
      (let set := setSeatValues seat timeout mask s
       if set.passed (set.port seat).deadline then passDeadline seat set else set) := by
  rw [setSeatCommand, if_neg (not_not_intro hr), if_neg (Nat.not_lt.mpr ht), accept_eq_granted]

theorem passDeadline_active (hs : (s.port seat).silent = false) : passDeadline seat s = silence seat s :=
  if_neg (by simp [hs])

theorem passDeadline_silent (hs : (s.port seat).silent = true) :
    passDeadline seat s = s.setPort seat { s.port seat with deadline := none } := if_pos hs

end SetSeat

/-- Settles O11: the two checks, then the new deadline before and after the present stamp. -/
theorem setSeatReplacesTimeoutAndMask : Obligations.SetSeatReplacesTimeoutAndMask := by
  intro seat h bytes s hp hb timeout deadline set
  have hset : setSeatValues seat timeout (wordAt bytes 2) s = set := rfl
  have hdeadline : (set.port seat).deadline = deadline := by rw [← hset, setSeatValues_port]
  have hsilent : (set.port seat).silent = (s.port seat).silent := by rw [← hset, setSeatValues_port]
  have hrun {t : State} (ht : setSeatCommand seat h timeout (wordAt bytes 2) s = t) :
      exec (.setSeat seat h bytes) s = done t := congrArg done ((withRecord_run hp hb _).trans ht)
  have hpassed (hd : ∃ d, deadline = some d ∧ d ≤ s.tenths) :
      set.passed (set.port seat).deadline = true := by
    obtain ⟨d, hd, hle⟩ := hd
    rw [hdeadline, hd]
    exact passed_of_le hle
  refine ⟨fun hr => hrun (if_pos hr), fun hr ht => hrun ?_, fun hr ht hd => hrun ?_,
    fun hr ht hd hs => hrun ?_, fun hr ht hd hs => hrun ?_⟩
  · rw [setSeatCommand, if_neg (not_not_intro hr), if_pos ht, refuse_eq_denied]
  · have hrunning : set.passed (set.port seat).deadline = false := by
      rw [hdeadline, passed_eq, Option.any_eq_false]
      exact fun d hd' => decide_eq_false (Nat.not_le.mpr (hd d hd'))
    rw [setSeatCommand_accepted hr ht, hset]
    dsimp only
    rw [hrunning, if_neg Bool.false_ne_true]
  · rw [setSeatCommand_accepted hr ht, hset]
    dsimp only
    rw [if_pos (hpassed hd), passDeadline_active (hsilent.trans hs)]
  · rw [setSeatCommand_accepted hr ht, hset]
    dsimp only
    rw [if_pos (hpassed hd), passDeadline_silent (hsilent.trans hs)]

end Sys2Proof.Machine
end

section
namespace Sys2Proof.Machine

/-! ### SEIZE_GRANT (R160) -/

/-- What the Set Store holds for a portal whose grant Seat L has just taken (R158). -/
def seizedEdit (p : Fin 4) (s : State) : Edit :=
  { s.edit p with holder := some .L, shadow := some { set := (s.set p).copied, locked := false } }

/-- Whether a seat loses the grant of a portal that Seat L seizes. -/
def State.losesGrant (s : State) (seat : Seat) (p : Fin 4) : Bool :=
  seat != .L && (s.edit p).holder == some seat

section Seize

variable (p : Fin 4) (s : State)

theorem giveGrant_L_edit (q : Fin 4) : (giveGrant .L p s).edit q =
    if p = q then seizedEdit p s else s.edit q := rd_wr _ _ _ _

theorem seize_of_held (h : (s.edit p).holder = some .L) : seize p s = s := by
  rw [seize, h]

theorem seize_of_free (h : (s.edit p).holder = none) : seize p s = giveGrant .L p s := by
  rw [seize, h]

theorem seize_of_other {x : Seat} (h : (s.edit p).holder = some x) (hx : x ≠ .L) :
    seize p s = postTo x (.grantLost p false) (giveGrant .L p s) := by
  rw [seize, h]
  cases x with
  | L => exact absurd rfl hx
  | _ => rfl

theorem seize_rest : SameButEdits s (seize p s) := by
  unfold seize
  split <;> rfl

theorem seize_edit (q : Fin 4) : (seize p s).edit q =
    if p = q ∧ (s.edit p).holder ≠ some .L then seizedEdit p s else s.edit q := by
  cases hh : (s.edit p).holder with
  | none =>
    rw [seize_of_free p s hh, giveGrant_L_edit]
    simp only [ne_eq, reduceCtorEq, not_false_eq_true, and_true]
  | some x =>
    by_cases hx : x = .L
    · rw [seize_of_held p s (hx ▸ hh), if_neg fun h => h.2 (congrArg some hx)]
    · have hedit : (postTo x (.grantLost p false) (giveGrant .L p s)).edit q =
          (giveGrant .L p s).edit q := rfl
      rw [seize_of_other p s hh hx, hedit, giveGrant_L_edit]
      simp only [ne_eq, Option.some.injEq, hx, not_false_eq_true, and_true]

variable {p} in
theorem seize_edit_of_ne {q : Fin 4} (h : p ≠ q) : (seize p s).edit q = s.edit q :=
  (seize_edit p s q).trans (if_neg fun hpq => h hpq.1)

theorem seize_queue (seat : Seat) : (seize p s).queue seat =
    (if s.losesGrant seat p then [.grantLost p false] else []).foldl
      (fun q e => q.place e s.uptime) (s.queue seat) := by
  unfold State.losesGrant
  cases hh : (s.edit p).holder with
  | none =>
    rw [seize_of_free p s hh]
    simp only [reduceCtorEq, beq_iff_eq, Bool.and_eq_true, and_false, if_false]
    rfl
  | some x =>
    by_cases hx : x = .L
    · rw [seize_of_held p s (hx ▸ hh)]
      subst hx
      cases seat <;> rfl
    · rw [seize_of_other p s hh hx, postTo, queue_setQueue]
      by_cases hs : x = seat
      · subst hs
        rw [if_pos rfl, if_pos (by simp [hx])]
        rfl
      · rw [if_neg hs, if_neg (by simp [hs])]
        rfl

end Seize

section Seizures

variable {l : List (Fin 4)} (hn : l.Nodup) (s : State)

theorem seizures_rest (l : List (Fin 4)) : SameButEdits s (forEach l seize s) :=
  forEach_keeps (P := SameButEdits s) (fun p _ u hu => hu.trans (seize_rest p u)) s rfl

include hn in
/-- Each portal named is seized as it stood. -/
theorem seizures_edit (p : Fin 4) : (forEach l seize s).edit p =
    if p ∈ l ∧ (s.edit p).holder ≠ some .L then seizedEdit p s else s.edit p := by
  by_cases hp : p ∈ l
  · simp only [hp, true_and]
    have hseized (u : State) (hu : u.edit p = s.edit p ∧ u.active = s.active) : (seize p u).edit p =
        if (s.edit p).holder ≠ some .L then seizedEdit p s else s.edit p := by
      obtain ⟨hedit, hactive⟩ := hu
      rw [seize_edit, seizedEdit, seizedEdit, hedit, State.set, hactive]
      simp only [true_and]
    refine forEach_once (Q := fun u => u.edit p = s.edit p ∧ u.active = s.active) hn hp hseized
      (fun q _ hq u hu => ⟨(seize_edit_of_ne u hq).trans hu.1, ?_⟩)
      (fun q _ hq u hu => (seize_edit_of_ne u hq).trans hu) s ⟨rfl, rfl⟩
    have hactive := congrArg State.active (seize_rest q u)
    exact hactive.trans hu.2
  · rw [if_neg fun h => hp h.1]
    exact forEach_keeps (P := fun u => u.edit p = s.edit p)
      (fun q hq u hu => (seize_edit_of_ne u (ne_of_mem_of_not_mem hq hp)).trans hu) s rfl

include hn in
/-- Each former holder is told portal by portal (log 38). -/
theorem seizures_queue (seat : Seat) : (forEach l seize s).queue seat =
    (l.filter (s.losesGrant seat)).foldl (fun q p => q.place (.grantLost p false) s.uptime) (s.queue seat) := by
  have h := forEach_queue (seat := seat) (f := seize)
    (told := fun p u => if u.losesGrant seat p then [.grantLost p false] else []) hn
    (fun p _ u => by
      have hnow := congrArg State.now (seize_rest p u)
      exact hnow)
    (fun p _ u => seize_queue p u seat)
    (fun p _ q _ hq u => by rw [State.losesGrant, State.losesGrant, seize_edit_of_ne u hq.symm]) s
  rw [h, flatMap_ite, List.foldl_map]

end Seizures

/-- Settles O16: the seat is checked first, and each portal named is seized once. -/
theorem seizeGrantTakesTheGrantForSeatL : Obligations.SeizeGrantTakesTheGrantForSeatL := by
  intro h s
  have hrun {seat : Seat} {t : State} (hp : (s.port seat).phase = .header)
      (ht : seizeGrantCommand seat h s = t) : exec (.seizeGrant seat h) s = .next t :=
    congrArg _ ((inHeader_run hp _).trans ht)
  have hn := portals_nodup h
  refine ⟨fun seat hseat hp => hrun hp (if_pos hseat), fun hp he => hrun hp ?_, fun hp he => ?_⟩
  · rw [seizeGrantCommand, if_neg (not_not_intro rfl), if_pos he, refuse_eq_denied]
  · refine ⟨forEach h.portals seize s, hrun hp ?_, seizures_edit hn s, seizures_rest s h.portals, ?_,
      fun seat hseat => ?_⟩
    · rw [seizeGrantCommand, if_neg (not_not_intro rfl), if_neg he, accept_eq_granted]
    · rw [seizures_queue hn, List.filter_eq_nil_iff.mpr (fun p _ => by simp [State.losesGrant]),
        List.foldl_nil]
    · have hloses : s.losesGrant seat = fun p => (s.edit p).holder == some seat :=
        funext fun p => by rw [State.losesGrant, bne_iff_ne.mpr hseat, Bool.true_and]
      rw [seizures_queue hn, hloses]

end Sys2Proof.Machine
end

section
namespace Sys2Proof.Machine

/-! ### WRITE (R146, R147, R158, R162) -/

theorem portalOf_val (p : Fin 4) : portalOf p.val = p := Fin.ext (Nat.mod_eq_of_lt p.isLt)

section Records

variable {seat : Seat} {x : Transfer} {p : Fin 4} {bytes : List Byte} {s : State}

theorem Transfer.portal_of_val (hp : p.val = if x.cls = 16 ∨ x.cls = 17 then x.index else x.owner) :
    x.portal = p := by
  rw [Transfer.portal, ← hp, portalOf_val]

theorem applyRecord_notHolder (hp : x.portal = p)
    (h : (s.edit p).holder ≠ some seat ∨ (s.edit p).shadow = none) :
    applyRecord seat x bytes s = .error .notHolder := by
  subst hp
  rw [applyRecord]
  cases hs : (s.edit x.portal).shadow with
  | none => rfl
  | some shadow => exact if_pos (h.resolve_right (by simp [hs]))

section Held

variable {set : PortalSet} {locked : Bool} (hp : x.portal = p) (hh : (s.edit p).holder = some seat)
  (hs : (s.edit p).shadow = some { set := set, locked := locked })
include hp hh hs

theorem applyRecord_held : applyRecord seat x bytes s =
    if locked then .error .locked
    else match set.writeRecord x bytes with
      | none => .error .badValue
      | some new => .ok (s.setEdit p { s.edit p with shadow := some { set := new, locked := locked } }) := by
  subst hp
  rw [applyRecord]
  dsimp only
  rw [hs]
  dsimp only
  exact if_neg (not_not_intro hh)

end Held

/-- The record of a transfer acts by `writeOne`, whether it comes with the header or later. -/
theorem exec_writeRecordAt {i : Instr} (hi : WriteRecordAt i seat x bytes s) :
    exec i s = .next (writeOne seat x bytes s) := by
  obtain ⟨-, ⟨h, rfl, hp, hx⟩ | ⟨rfl, hp⟩⟩ := hi
  · refine congrArg _ ((inHeader_run hp _).trans ?_)
    rw [writeCommand, hx]
  · change execWriteRecord seat bytes s = _
    rw [execWriteRecord, hp]

theorem exec_write_refused {i : Instr} (hi : WriteRecordAt i seat x bytes s) {code : ResultCode}
    (ha : applyRecord seat x bytes s = .error code) : exec i s = .next (endWrite seat code x.done s) := by
  rw [exec_writeRecordAt hi, writeOne, if_pos hi.1, ha]

/-- How the transfer goes on after a record that was accepted (R146). -/
theorem exec_write_accepted {i : Instr} (hi : WriteRecordAt i seat x bytes s) {t : State}
    (ha : applyRecord seat x bytes s = .ok t) :
    (x.left ≤ 1 → exec i s = .next (endWrite seat .ok (x.done + 1) t)) ∧
    (∀ n, 1 < x.left → x.stepping.next x.index = some n → n < shadowRange x.cls →
      exec i s = .next (t.setPort seat
        { t.port seat with
          phase := .writing { x with index := n, left := x.left - 1, done := x.done + 1 }, out := [] })) ∧
    (1 < x.left → (∀ n, x.stepping.next x.index = some n → shadowRange x.cls ≤ n) →
      exec i s = .next (endWrite seat .badIndex (x.done + 1) t)) := by
  rw [exec_writeRecordAt hi, writeOne, if_pos hi.1, ha]
  dsimp only
  refine ⟨fun hl => congrArg _ (if_pos hl), fun n hl hn hlt => congrArg _ ?_, fun hl hout => congrArg _ ?_⟩
  · rw [if_neg (Nat.not_le.mpr hl), hn]
    exact if_pos hlt
  · rw [if_neg (Nat.not_le.mpr hl)]
    cases hn : x.stepping.next x.index with
    | none => rfl
    | some n => exact if_neg (Nat.not_lt.mpr (hout n hn))

end Records

/-- Settles O18: the header by `writeTransfer`, the record by `applyRecord`, the transfer by its index
test. -/
theorem writeChecksItsHeaderAndItsRecords : Obligations.WriteChecksItsHeaderAndItsRecords := by
  refine ⟨fun seat h bytes s hp => ?_, fun i seat x p bytes s hi hp => ?_,
    fun i seat x p bytes s old new hi hp hh hs hw => ?_⟩
  · intro range deny
    have hrange : shadowRange h.cls = range := shadowRange_eq h.cls
    have hdeny {code : ResultCode} (hx : writeTransfer h = .error code) : deny code := by
      refine congrArg _ ((inHeader_run hp _).trans ?_)
      rw [writeCommand, hx]
      exact refuse_eq_denied seat code 0 s
    refine ⟨fun hc => hdeny (writeTransfer_badObject hc), fun h16 h20 hown => ?_⟩
    have hwritable : ¬ (h.cls < 16 ∨ 20 ≤ h.cls ∨ (18 ≤ h.cls ∧ 4 ≤ h.owner)) := by
      rintro (hlt | hge | ⟨h18, h4⟩)
      · exact Nat.not_lt.mpr h16 hlt
      · exact Nat.not_le.mpr h20 hge
      · exact Nat.not_le.mpr (hown h18) h4
    have htransfer := writeTransfer_writable hwritable
    rw [hrange] at htransfer
    exact ⟨fun hb => hdeny (htransfer.trans (transferOf_badValue hb)),
      fun hs hr hi => hdeny (htransfer.trans (transferOf_badIndex hs hr hi)),
      fun x hx hr hi => htransfer.trans (transferOf_ok hx hr hi)⟩
  · intro e ends
    have hportal := Transfer.portal_of_val hp
    refine ⟨fun hn => exec_write_refused hi (applyRecord_notHolder hportal hn), fun set hh hs => ?_,
      fun set hh hs hw => ?_⟩
    · exact exec_write_refused hi (applyRecord_held hportal hh hs)
    · refine exec_write_refused (code := .badValue) hi ((applyRecord_held hportal hh hs).trans ?_)
      rw [if_neg Bool.false_ne_true, hw]
  · intro written range next
    have happly : applyRecord seat x bytes s = .ok written := by
      rw [applyRecord_held (Transfer.portal_of_val hp) hh hs, if_neg Bool.false_ne_true, hw]
    have hrange : shadowRange x.cls = range := shadowRange_eq x.cls
    have hnext : x.stepping.next x.index = next := rfl
    obtain ⟨hlast, hmore, hout⟩ := exec_write_accepted hi happly
    rw [hrange, hnext] at hmore hout
    have hchanged : decide (0 < x.done + 1) = true := decide_eq_true (Nat.succ_pos _)
    rw [endWrite, hchanged] at hlast hout
    exact ⟨hlast, hmore, hout⟩

end Sys2Proof.Machine
end

section
namespace Sys2Proof.Machine

/-! ### READ and its records (R143, R146, R148, R154) -/

section Reads

variable {seat : Seat} {h : Header} {x : Transfer} {s : State}

/-- The seat's port at the header of a READ that is refused: A is cleared (R149, R154). -/
def SeatPort.readRefused (x : SeatPort) (code : ResultCode) : SeatPort :=
  { x with
    code := code, value := 0, phase := .tail, out := []
    condition := { x.condition with a := false } }

theorem readCommand_refused {code : ResultCode} (hx : readTransfer seat h s = .error code) :
    readCommand seat h s = s.setPort seat ((s.port seat).readRefused code) := by
  rw [readCommand, hx]
  rfl

theorem readCommand_ok (hx : readTransfer seat h s = .ok x) :
    readCommand seat h s =
      s.setPort seat { s.port seat with out := [0#8], phase := .reading x none } := by
  rw [readCommand, hx]
  rfl

theorem readTransfer_badObject
    (hc : 24 ≤ h.cls ∨ (h.cls ∈ [8, 9, 18, 19, 22, 23] ∧ 4 ≤ h.owner)) :
    readTransfer seat h s = .error .badObject :=
  if_neg fun hex => (classExists_iff _ _).mp hex hc

theorem readTransfer_exists (hc : ¬ (24 ≤ h.cls ∨ (h.cls ∈ [8, 9, 18, 19, 22, 23] ∧ 4 ≤ h.owner))) :
    readTransfer seat h s = transferOf h (s.objectRange seat h.cls h.owner) :=
  if_pos ((classExists_iff _ _).mpr hc)

theorem popDelivered_port (y : Seat) : (popDelivered seat x s).port y = s.port y := by
  unfold popDelivered
  split <;> rfl

/-- The end of a READ after a record was delivered. -/
theorem endRead_popped (code : ResultCode) (n : Nat) :
    endRead seat code n (popDelivered seat x s) = (popDelivered seat x s).setPort seat
      { s.port seat with
        code := code, value := n, phase := .tail, out := []
        condition := { (s.port seat).condition with a := decide (code = .ok) } } := by
  rw [endRead, endCommand, popDelivered_port]
  by_cases hc : code = .ok
  · rw [if_pos hc, decide_eq_true hc]
    rfl
  · rw [if_neg hc, decide_eq_false hc]
    rfl

/-- How the transfer goes on after a record was delivered (R146). -/
theorem deliverRecord_spec :
    (x.left ≤ 1 → deliverRecord seat x s = endRead seat .ok (x.done + 1) (popDelivered seat x s)) ∧
    (∀ n, 1 < x.left → x.stepping.next x.index = some n →
      n < (popDelivered seat x s).objectRange seat x.cls x.owner →
      deliverRecord seat x s = (popDelivered seat x s).setPort seat
        { s.port seat with
          out := []
          phase := .reading { x with index := n, left := x.left - 1, done := x.done + 1 } none }) ∧
    (1 < x.left → (∀ n, x.stepping.next x.index = some n →
      (popDelivered seat x s).objectRange seat x.cls x.owner ≤ n) →
      deliverRecord seat x s = endRead seat .badIndex (x.done + 1) (popDelivered seat x s)) := by
  rw [deliverRecord]
  refine ⟨fun hl => if_pos hl, fun n hl hn hlt => ?_, fun hl hout => ?_⟩
  · rw [if_neg (Nat.not_le.mpr hl), hn]
    refine (if_pos hlt).trans ?_
    rw [setPhase, popDelivered_port]
  · rw [if_neg (Nat.not_le.mpr hl)]
    cases hn : x.stepping.next x.index with
    | none => rfl
    | some n => exact if_neg (Nat.not_lt.mpr (hout n hn))

theorem exec_readRecord_start (hp : (s.port seat).phase = .reading x none) :
    exec (.readRecord seat .start) s = .next (startRecord seat x s) := by
  change execReadRecord seat .start s = _
  unfold execReadRecord
  rw [hp]

theorem exec_readRecord_delivery {shot : List Byte} (hp : (s.port seat).phase = .reading x (some shot)) :
    exec (.readRecord seat .delivery) s = .next (deliverRecord seat x s) := by
  change execReadRecord seat .delivery s = _
  unfold execReadRecord
  rw [hp]

end Reads

/-- Settles O9: the header by `readTransfer`, the delivery by its index test. -/
theorem readChecksItsHeaderAndDeliversItsRecords :
    Obligations.ReadChecksItsHeaderAndDeliversItsRecords := by
  refine ⟨fun seat h s hp => ?_, fun seat x bytes s hp hb => ?_, fun seat x bytes s hp => ?_⟩
  · intro bad range
    refine congrArg _ ((inHeader_run hp _).trans ?_)
    by_cases hc : 24 ≤ h.cls ∨ (h.cls ∈ [8, 9, 18, 19, 22, 23] ∧ 4 ≤ h.owner)
    · rw [if_pos hc]
      exact readCommand_refused (readTransfer_badObject hc)
    rw [if_neg hc]
    have htransfer := readTransfer_exists (seat := seat) (s := s) hc
    cases hs : h.stepping with
    | none => exact readCommand_refused (htransfer.trans (transferOf_badValue (Or.inl hs)))
    | some x =>
      have hne : h.stepping ≠ none := by simp [hs]
      dsimp only
      split_ifs with hr hi
      · exact readCommand_refused (htransfer.trans (transferOf_badValue (Or.inr hr)))
      · exact readCommand_refused (htransfer.trans (transferOf_badIndex hne hr hi))
      · exact readCommand_ok (htransfer.trans (transferOf_ok hs hr (Nat.not_le.mp hi)))
  · rw [exec_readRecord_start hp, startRecord, hb]
    rfl
  · intro popped range ended next
    have hpopped : popDelivered seat x s = popped := rfl
    have hnext : x.stepping.next x.index = next := rfl
    obtain ⟨hlast, hmore, hout⟩ := deliverRecord_spec (seat := seat) (x := x) (s := s)
    rw [endRead_popped] at hlast hout
    rw [hpopped] at hlast
    rw [hpopped, hnext] at hmore hout
    have hrun := exec_readRecord_delivery hp
    exact ⟨fun hl => hrun.trans (congrArg _ (hlast hl)),
      fun n hl hn hlt => hrun.trans (congrArg _ (hmore n hl hn hlt)),
      fun hl hn => hrun.trans (congrArg _ (hout hl hn))⟩

end Sys2Proof.Machine
end

section
namespace Sys2Proof.Machine

/-! ### Records laid out by their fields (R176, R178, R179) -/

theorem seatOf_seatIx (x : Seat) : seatOf (seatIx x).val = x := by cases x <;> rfl

theorem meterOf_val (m : Fin 8) : meterOf m.val = m := Fin.ext (Nat.mod_eq_of_lt m.isLt)

theorem channelOf_val (c : Fin 32) : channelOf c.val = c := Fin.ext (Nat.mod_eq_of_lt c.isLt)

theorem portalOf_zoneIndex (p : Fin 4) (z : Fin 5) : portalOf ((5 * p.val + z.val) / 5) = p := by
  refine Fin.ext ?_
  change (5 * p.val + z.val) / 5 % 4 = p.val
  omega

theorem zoneIx_zoneIndex (p : Fin 4) (z : Fin 5) : zoneIx (5 * p.val + z.val) = z := by
  refine Fin.ext ?_
  change (5 * p.val + z.val) % 5 = z.val
  omega

theorem flags_eq_flagByte (l : List Bool) : flags l = byte (flagByte l) := by
  refine congrArg byte ?_
  induction l with
  | nil => rfl
  | cons b rest ih => rw [List.foldr_cons, ih, flagByte, Nat.add_comm, Nat.mul_comm]

theorem flag_add_flag (a b : Bool) : flag a 0 + flag b 1 = flagByte [a, b] := by
  cases a <;> cases b <;> rfl

theorem tripSet_code_eq_flagByte (x : TripSet) : x.code = flagByte [x.fire, x.line, x.order] := by
  obtain ⟨fire, line, order⟩ := x
  cases fire <;> cases line <;> cases order <;> rfl

theorem untilStamp_eq (s : State) (deadline : Option Nat) :
    s.untilStamp deadline = (deadline.map fun d => d - s.tenths).getD 0 := by
  cases deadline <;> rfl

theorem remaining_eq (s : State) (timer : Option Nat) :
    s.remaining timer = (timer.map fun t => (t - s.now) / 100).getD 0 := by
  cases timer <;> rfl

theorem row_of_lt (x : PortalSet) (i : Fin 12) : x.row i.val = rd x.rows i := dif_pos i.isLt

theorem onLine_length (l : LampLine) :
    l.onLine.length = (allAddrs.filter fun a => (rd l.stations a).isSome).length := by
  rw [LampLine.onLine, List.length_filterMap_eq_countP, List.countP_eq_length_filter]

theorem onLine_lost_length (l : LampLine) :
    (l.onLine.filter fun t => t.misses == 3).length =
      (allAddrs.filter fun a => (rd l.stations a).any fun t => t.misses == 3).length := by
  rw [LampLine.onLine, List.filter_filterMap, List.length_filterMap_eq_countP, List.countP_eq_length_filter]
  simp only [Option.isSome_filter]

/-! ### What a line holds for a channel (R140) -/

section LineView

variable {s : State} {c : Fin 32} {n : Fin 4} {k : Circuit} {t : Station} {d : Departed}

theorem lineView_of_station (hk : s.assignment c = some k)
    (ht : rd (s.lampLine k.portal).stations k.addr = some t) (hc : t.channel = c) :
    s.lineView c = some { misses := t.misses, status := t.status, farewell := false
                          entry := (s.lampLine k.portal).waits k.addr } := by
  simp only [State.lineView, hk, ht, hc, if_true]

/-- Away from its address a channel is shown by its farewell on its own line. -/
theorem lineView_of_away (hk : s.assignment c = some k)
    (hc : (s.lampLine k.portal).carries k.addr c = false) :
    s.lineView c = (s.lampLine k.portal).departedView c := by
  simp only [State.lineView, hk]
  cases ht : rd (s.lampLine k.portal).stations k.addr with
  | none => rfl
  | some t =>
    rw [LampLine.carries, ht] at hc
    exact if_neg (by simpa using hc)

theorem departedView_of_first (hd : ((s.lampLine n).departed.find? fun y => y.channel == c) = some d) :
    (s.lampLine n).departedView c = some { misses := d.misses, status := d.status, farewell := true
                                           entry := (s.lampLine n).waits d.addr } := by
  rw [LampLine.departedView, hd, Option.map_some]

theorem departedView_of_none (h : ∀ y ∈ (s.lampLine n).departed, y.channel ≠ c) :
    (s.lampLine n).departedView c = none := by
  rw [LampLine.departedView, List.find?_eq_none.mpr (by simpa using h), Option.map_none]

/-- An unassigned channel is shown by its farewell on the lowest line that has one (log 46). -/
theorem lineView_of_lowest (hk : s.assignment c = none) {v : LineView}
    (hlow : ∀ q, q < n → ∀ y ∈ (s.lampLine q).departed, y.channel ≠ c)
    (hv : (s.lampLine n).departedView c = some v) : s.lineView c = some v := by
  simp only [State.lineView, hk]
  have hbelow (q : Fin 4) (hq : q < n) : (s.lampLine q).departedView c = none :=
    departedView_of_none (hlow q hq)
  rw [allPortals, List.findSome?_eq_some_iff]
  match n, hv, hbelow with
  | 0, hv, _ => exact ⟨[], 0, [1, 2, 3], rfl, hv, by simp⟩
  | 1, hv, hbelow => exact ⟨[0], 1, [2, 3], rfl, hv, by simp [hbelow]⟩
  | 2, hv, hbelow => exact ⟨[0, 1], 2, [3], rfl, hv, by simp [hbelow]⟩
  | 3, hv, hbelow => exact ⟨[0, 1, 2], 3, [], rfl, hv, by simp [hbelow]⟩

theorem lineView_of_nothing (hk : s.assignment c = none)
    (h : ∀ n, ∀ y ∈ (s.lampLine n).departed, y.channel ≠ c) : s.lineView c = none := by
  simp only [State.lineView, hk]
  exact List.findSome?_eq_none_iff.mpr fun n _ => departedView_of_none (h n)

end LineView

/-! ### The records of sets (R178) -/

theorem stageRow_bytes (r : StageRow) : r.bytes = layout
    [(2, r.rise.getD 65535), (2, r.fall.getD 65535), (2, r.dwell), (2, rd r.levels 0),
     (2, rd r.levels 1), (2, rd r.levels 2), (2, rd r.levels 3), (2, rd r.levels 4)] := rfl

theorem portalRecord_bytes (r : PortalRecord) : r.bytes = layout
    [(1, flagByte [r.enabled, r.activeLow, r.fireArmed, r.lineArmed]),
     (1, flagByte [rd r.zones 0, rd r.zones 1, rd r.zones 2, rd r.zones 3, rd r.zones 4]),
     (1, (r.slot0.map Fin.val).getD 255), (1, (r.slot1.map Fin.val).getD 255), (1, r.k),
     (1, r.window), (1, r.tStale), (1, r.overlap), (2, r.tHold), (2, r.upRate), (2, r.downRate),
     (2, rd r.boost 0), (2, rd r.boost 1), (2, rd r.boost 2), (2, rd r.boost 3),
     (2, rd r.boost 4)] := by
  simp only [PortalRecord.bytes, flags_eq_flagByte]
  rfl

theorem channelSlot_bytes (r : ChannelRecord) : slotBytes (some r) = layout
    [(1, flagByte [true, r.switched]), (1, r.channel.val), (1, (r.zone.map Fin.val).getD 7),
     (1, 0), (2, r.failLevel), (2, r.minLevel)] := by
  simp only [slotBytes, flags_eq_flagByte]
  rfl

/-- Settles O10: each class has its range and its record's bytes, laid out field by field. -/
theorem readDeliversTheRecordsOfItsClass : Obligations.ReadDeliversTheRecordsOfItsClass := by
  intro s seat owner object seats rest row record slot sets
  have hrow (r : StageRow) : r.bytes = layout (row r) := stageRow_bytes r
  have hrecord (r : PortalRecord) : r.bytes = layout (record r) := portalRecord_bytes r
  have hslot (x : Option ChannelRecord) : slotBytes x = layout (slot x) := by
    cases x with
    | none => rfl
    | some r => exact channelSlot_bytes r
  have hpart : object 0 0
      [(4, s.uptime), (1, s.resetCause.code),
       (1, if s.storing ≠ none then 2 else if s.image ≠ none then 0 else 1), (2, 0)] := by
    change some s.partBytes = _
    rw [State.partBytes]
    cases s.storing <;> cases s.image <;> rfl
  have hsets (first : Nat) (p : Fin 4) (x : Fin 4 → Option PortalSet)
      (h16 : ∀ i, s.objectBytes seat first owner i = some (setBytes (x (portalOf i)) 16 i))
      (h17 : ∀ i, s.objectBytes seat (first + 1) owner i = some (setBytes (x (portalOf i)) 17 i))
      (h18 : ∀ i, s.objectBytes seat (first + 2) owner i = some (setBytes (x (portalOf owner)) 18 i))
      (h19 : ∀ i, s.objectBytes seat (first + 3) owner i = some (setBytes (x (portalOf owner)) 19 i)) :
      sets first p (x p) := by
    have at16 := h16 p.val
    have at17 := h17 p.val
    rw [portalOf_val] at at16 at17
    have howner (hp : owner = p.val) : x (portalOf owner) = x p := by rw [hp, portalOf_val]
    refine ⟨fun hx => ?_, fun y hy => ?_⟩
    · rw [hx] at at16 at17
      refine ⟨at16, at17, fun hp i => ?_⟩
      rw [(howner hp).trans hx] at h18 h19
      exact ⟨h18 i, h19 i⟩
    · have hx : x p = some y := hy
      rw [hx] at at16 at17
      refine ⟨at16.trans (congrArg some (hrecord y.record)), at17, fun hp => ?_⟩
      rw [(howner hp).trans hx] at h18 h19
      refine ⟨fun i => (h18 i).trans (congrArg some ?_), fun i => (h19 i).trans (congrArg some ?_)⟩
      · rw [← hrow, ← row_of_lt]
        rfl
      · rw [← hslot]
        exact congrArg slotBytes (dif_pos i.isLt)
  have hportal {cls : Nat} {p : Fin 4} {bytes : Fin 4 → List Byte} {fields : List (Nat × Nat)}
      (hcls : s.objectBytes seat cls owner p.val = some (bytes (portalOf p.val)))
      (hbytes : bytes p = layout fields) : object cls p.val fields := by
    rw [portalOf_val] at hcls
    exact hcls.trans (congrArg some hbytes)
  refine ⟨⟨?_, fun m hm => ?_, fun p hp => ?_, ?_⟩, hpart, fun x => ?_, fun p => ?_, fun m => ?_,
    fun c => ?_, fun r others hr => ?_, ?_⟩
  · simp only [List.forall_mem_cons, List.not_mem_nil, false_imp_iff, implies_true, and_true]
    exact ⟨rfl, rfl, rfl, rfl, rfl, rfl, rfl, rfl, rfl, rfl, rfl, rfl, rfl, rfl, rfl, rfl, rfl, rfl,
      rfl, rfl⟩
  · change (s.meter (meterOf owner)).ring.length = _
    rw [hm, meterOf_val]
  · change (s.set (portalOf owner)).stageCount = _ ∧ (s.arbiter (portalOf owner)).claims.length = _
    rw [hp, portalOf_val]
    exact ⟨rfl, rfl⟩
  · change (if (s.queue seat).records.isEmpty then 0 else 1) = _
    simp only [List.isEmpty_iff]
  · change some (s.seatBytes (seatOf (seatIx x).val)) = _
    rw [seatOf_seatIx]
    simp only [State.seatBytes, flags_eq_flagByte, untilStamp_eq]
    rfl
  · intro e v l a u n number newest count
    refine ⟨hportal (bytes := s.portalBytes) rfl ?_, hportal (bytes := s.sourceBytes) rfl ?_,
      hportal (bytes := s.selectorBytes) rfl ?_,
      hportal (bytes := fun p => headerBytes (s.set p).stageCount) rfl rfl,
      hportal (bytes := s.arbiterBytes) rfl rfl, hportal (bytes := s.lineBytes) rfl ?_,
      hportal (bytes := s.tripBytes) rfl ?_, fun z => ?_,
      fun hp => ⟨fun i hi => ?_, fun i hi => ?_, fun i c hc => ?_, fun i hi => ?_⟩, ?_, ?_⟩
    · simp only [State.portalBytes, flags_eq_flagByte, seats, Option.map_map]
      rfl
    · simp only [State.sourceBytes, remaining_eq, v]
      cases (s.eval p).mismatchSince <;> rfl
    · simp only [State.selectorBytes, remaining_eq]
      rfl
    · simp only [State.lineBytes, onLine_length, onLine_lost_length]
      rfl
    · simp only [State.tripBytes, flags_eq_flagByte, tripSet_code_eq_flagByte, remaining_eq, seats,
        Option.map_map]
      rfl
    · change some (s.zoneBytes (portalOf ((5 * p.val + z.val) / 5)) (zoneIx (5 * p.val + z.val))) = _
      rw [portalOf_zoneIndex, zoneIx_zoneIndex, State.zoneBytes]
      cases s.zone p z with
      | none => rfl
      | some zn =>
        simp only [flags_eq_flagByte, remaining_eq]
        rfl
    · change (if i.val < (s.set (portalOf owner)).stageCount then
        some ((s.set (portalOf owner)).row i.val).bytes else none) = _
      rw [hp, portalOf_val, if_pos hi, row_of_lt, hrow]
    · change (if i < (s.set (portalOf owner)).stageCount then
        some ((s.set (portalOf owner)).row i).bytes else none) = _
      rw [hp, portalOf_val, if_neg (Nat.not_lt.mpr hi)]
    · change ((s.arbiter (portalOf owner)).claims[i]?).map s.claimBytes = _
      rw [hp, portalOf_val, hc, Option.map_some]
      simp only [State.claimBytes, flags_eq_flagByte, untilStamp_eq]
      rfl
    · change ((s.arbiter (portalOf owner)).claims[i]?).map s.claimBytes = _
      rw [hp, portalOf_val, List.getElem?_eq_none hi, Option.map_none]
    · exact hsets 16 p (fun q => (s.edit q).shadow.map Shadow.set) (fun _ => rfl) (fun _ => rfl)
        (fun _ => rfl) fun _ => rfl
    · exact hsets 20 p (fun q => (s.edit q).pendingSet.map PendingSet.set) (fun _ => rfl) (fun _ => rfl)
        (fun _ => rfl) fun _ => rfl
  · intro x
    refine ⟨?_, fun hm => ⟨fun i r hr => ?_, fun i hi => ?_⟩⟩
    · change some (s.meterBytes (meterOf m.val)) = _
      rw [meterOf_val]
      simp only [State.meterBytes, flags_eq_flagByte, x]
      split_ifs <;> rfl
    · change ((s.meter (meterOf owner)).ring[i]?).map Reading.bytes = _
      rw [hm, meterOf_val, hr]
      rfl
    · change ((s.meter (meterOf owner)).ring[i]?).map Reading.bytes = _
      rw [hm, meterOf_val, List.getElem?_eq_none hi, Option.map_none]
  · intro ch k v st
    refine ⟨?_, fun j t hk ht hc => lineView_of_station hk ht hc, fun n d hn hd => ?_,
      lineView_of_nothing⟩
    · change some (s.channelBytes (channelOf c.val)) = _
      rw [channelOf_val]
      simp only [State.channelBytes, flags_eq_flagByte, flag_add_flag, seats, Option.map_map]
      rfl
    · obtain ⟨hk, hlow⟩ | ⟨j, hk, rfl, haway⟩ := hn
      · exact lineView_of_lowest hk hlow (departedView_of_first hd)
      · exact (lineView_of_away hk haway).trans (departedView_of_first hd)
  · intro about bit
    have hbytes : s.objectBytes seat 15 owner 0 = some r.bytes := by
      change (s.queue seat).records.head?.map EventRecord.bytes = _
      rw [hr]
      rfl
    obtain ⟨event, seq, time⟩ := r
    cases event with
    | tripped p x y =>
      refine ⟨rfl, hbytes.trans (congrArg some ?_)⟩
      simp only [EventRecord.bytes, Event.fields, tripSet_code_eq_flagByte]
      rfl
    | _ => exact ⟨rfl, hbytes⟩
  · exact ⟨rfl, rfl, rfl, rfl, rfl, rfl, rfl, rfl, rfl, rfl, rfl, rfl, rfl⟩

end Sys2Proof.Machine
end

section
namespace Sys2Proof.Machine

/-! ### What a RESTART writes (R109, R141, R156) -/

/-- The part at a RESTART before its zones and channels act: what is kept, and what is reset. -/
def State.restarted (s : State) : State :=
  { resetCommon .restart s.active s with
    channels := tab fun c => { s.channel c with hand := none }
    lines := tab fun n => (s.lampLine n).keep s.now
    trips := tab fun p => (s.tripUnit p).keep s.now
    storing := s.storing.map fun w => w.keep s.now }

theorem restartPart_eq (s : State) : restartPart s = forEach allPortals restartPortal s.restarted := rfl

/-- Kept by the writes of a RESTART over the active sets of `s`, where `acts` says which zones, and the
circuits of which zones, may act: zones are planned, targets are given, and SWITCHED channels follow. -/
structure KeptByRestart (s : State) (acts : Fin 4 → Option (Fin 5) → Prop) (P : State → Prop) : Prop where
  active : ∀ u, P u → u.active = s.active
  zone : ∀ p z x u, acts p (some z) → P u → P (u.setZone p z (some x))
  aim : ∀ k x u, k ∈ s.circuits k.portal → acts k.portal k.cfg.zone → P u →
    P (u.setChannel k.cfg.channel { u.channel k.cfg.channel with target := x })
  command : ∀ k level u, k ∈ s.circuits k.portal → k.cfg.switched = true → acts k.portal k.cfg.zone →
    P u → P (command k level u)

theorem restartZone_of_none {p : Fin 4} {z : Fin 5} {u : State} (h : u.zone p z = none) :
    restartZone p z u = u := by
  rw [restartZone, h]

/-- A present zone as it is written or planned at a RESTART (R109). -/
def Zone.restarted (zn : Zone) (level : Nat) (on : Bool) : Zone :=
  { zn with
    working := level, latest := none, switched := on, confirmed := false, overlap := none, confirm := none
    degraded := false }

theorem restartZone_of_some {p : Fin 4} {z : Fin 5} {u : State} {zn : Zone} (h : u.zone p z = some zn) :
    restartZone p z u =
      if u.tripped p then u.setZone p z (some
        { zn.restarted ((u.set p).topLevel z) (u.switchedLevel p z) with state := .held })
      else plan p z (zn.restarted ((u.set p).topLevel z) (u.switchedLevel p z)) u := by
  rw [restartZone, h]
  rfl

section Keeps

variable {s : State} {acts : Fin 4 → Option (Fin 5) → Prop} {P : State → Prop}
  (h : KeptByRestart s acts P)
include h

theorem KeptByRestart.mem {u : State} (hu : P u) {p : Fin 4} {k : Circuit} (hk : k ∈ u.circuits p) :
    k.portal = p ∧ k ∈ s.circuits k.portal := by
  obtain rfl := circuit_portal hk
  exact ⟨rfl, circuits_of_active (h.active u hu) _ ▸ hk⟩

theorem KeptByRestart.drive {k : Circuit} (hk : k ∈ s.circuits k.portal) (ha : acts k.portal k.cfg.zone)
    {u : State} (hu : P u) : P (driveSwitched k u) := by
  unfold driveSwitched
  dsimp only
  split
  · next hs => exact h.command k _ u hk hs.1 ha hu
  · exact hu

theorem KeptByRestart.plan {p : Fin 4} {z : Fin 5} (ha : acts p (some z)) :
    KeptByPlan p z (fun k => k.portal = p ∧ k ∈ s.circuits k.portal) P := by
  have scope (u : State) (hu : P u) : ∀ k ∈ u.circuits p, k.portal = p ∧ k ∈ s.circuits k.portal :=
    fun _ hk => h.mem hu hk
  have acting {k : Circuit} (hp : k.portal = p) (hz : k.cfg.zone = some z) : acts k.portal k.cfg.zone := by
    rw [hp, hz]
    exact ha
  exact
    { scope := scope, zone := fun x u hu => h.zone p z x u ha hu
      aim := fun k x u ⟨hp, hk⟩ hz _ hu => h.aim k x u hk (acting hp hz) hu
      give := giveSwitched_of_writes scope (fun k x u ⟨hp, hk⟩ hz hu => h.aim k x u hk (acting hp hz) hu)
        fun k level u ⟨hp, hk⟩ hz hs _ _ hu => h.command k level u hk hs (acting hp hz) hu }

theorem KeptByRestart.restartZone {p : Fin 4} {z : Fin 5} (ha : acts p (some z)) {u : State} (hu : P u) :
    P (restartZone p z u) := by
  cases hz : u.zone p z with
  | none => rwa [restartZone_of_none hz]
  | some zn =>
    rw [restartZone_of_some hz]
    split
    · exact h.zone p z _ u ha hu
    · exact (h.plan ha).plan _ u hu

theorem KeptByRestart.restartLoose {p : Fin 4} (ha : acts p none) {u : State} (hu : P u) :
    P (forEach (u.circuits p) restartLoose u) := by
  refine forEach_keeps (fun k hk v hv => ?_) u hu
  obtain ⟨hp, hks⟩ := h.mem hu hk
  unfold Machine.restartLoose
  split
  · next hz =>
    have hacts : acts k.portal k.cfg.zone := by
      rw [hp, hz]
      exact ha
    exact h.drive hks hacts (h.aim k _ v hks hacts hv)
  · exact hv

theorem KeptByRestart.restartPortal {p : Fin 4} (ha : ∀ z, acts p z) {u : State} (hu : P u) :
    P (Machine.restartPortal p u) := by
  have hzones : P (forEach allZones (Machine.restartZone p) u) :=
    forEach_keeps (fun z _ v hv => h.restartZone (ha (some z)) hv) u hu
  have hloose := h.restartLoose (ha none) hzones
  rwa [circuits_of_active ((h.active _ hzones).trans (h.active u hu).symm)] at hloose

end Keeps

/-- Every zone may act. -/
abbrev anyZone (_ : Fin 4) (_ : Option (Fin 5)) : Prop := True

/-- Every zone but one may act. -/
abbrev otherZones (p : Fin 4) (z : Fin 5) (q : Fin 4) (w : Option (Fin 5)) : Prop := ¬ (q = p ∧ w = some z)

theorem KeptByRestart.restart {s : State} {P : State → Prop} (h : KeptByRestart s anyZone P) {u : State}
    (hu : P u) : P (forEach allPortals Machine.restartPortal u) :=
  forEach_keeps (fun _ _ _ hv => h.restartPortal (fun _ => trivial) hv) u hu

/-! ### What a RESTART leaves of the part outside its lighting -/

/-- From `s` to `u` nothing was written but zones, channels and lines. -/
def SameButLit (s u : State) : Prop :=
  { u with zones := s.zones, channels := s.channels, lines := s.lines } = s

theorem SameButLit.eq_with {s u : State} (h : SameButLit s u) :
    u = { s with zones := u.zones, channels := u.channels, lines := u.lines } :=
  congrArg (fun v : State => { v with zones := u.zones, channels := u.channels, lines := u.lines }) h

theorem SameButLit.output {s u : State} (h : SameButLit s u) : SameButOutput s u := by
  rw [h.eq_with]
  rfl

theorem SameButLit.trips {s u : State} (h : SameButLit s u) : u.trips = s.trips := by
  rw [h.eq_with]

theorem SameButLit.restart (s : State) (acts : Fin 4 → Option (Fin 5) → Prop) :
    KeptByRestart s acts (SameButLit s) where
  active := fun _ h => h.output.active
  zone := fun _ _ _ _ _ h => h
  aim := fun _ _ _ _ _ h => h
  command := fun k level u _ _ _ h => command_keeps_dark (fun _ _ _ => rfl) k level u h

theorem SameHands.restart (s : State) :
    KeptByRestart s anyZone fun u => u.active = s.active ∧ SameHands s u where
  active := fun _ h => h.1
  zone := fun _ _ _ _ _ h => h
  aim := fun k x u _ _ h => ⟨h.1, (SameHands.output k.portal s).aim k x u trivial h.2⟩
  command := fun k level u _ _ _ h =>
    ⟨(command_active k level u).trans h.1, (SameHands.output k.portal s).command k level u trivial h.2⟩

/-- The level of a channel that no SWITCHED circuit names stays. -/
theorem level_restart {s : State} {c : Fin 32}
    (hc : ∀ q, ∀ k ∈ s.circuits q, k.cfg.channel = c → k.cfg.switched = false) :
    KeptByRestart s anyZone fun u => u.active = s.active ∧ (u.channel c).level = (s.channel c).level where
  active := fun _ h => h.1
  zone := fun _ _ _ _ _ h => h
  aim := fun k x u _ _ h => by
    refine ⟨h.1, ?_⟩
    rw [channel_setChannel]
    split
    · next hkc => exact hkc ▸ h.2
    · exact h.2
  command := fun k level u hk hs _ h => by
    refine ⟨(command_active k level u).trans h.1, ?_⟩
    rw [command_channel_of_ne fun hkc => Bool.false_ne_true ((hc _ k hk hkc).symm.trans hs)]
    exact h.2

/-! ### The lamp lines across a RESTART (R130, R141) -/

/-- From `old` to `l` only the update set of a line of `circuits` was written: its addresses kept their
places, and the entries at addresses of no SWITCHED circuit stand. -/
structure LineKept (circuits : List Circuit) (old l : LampLine) : Prop where
  rest : { l with updates := old.updates } = old
  addrs : old.updates.map Entry.addr <+: l.updates.map Entry.addr
  entries : ∀ e ∈ old.updates, (∀ k ∈ circuits, k.cfg.switched = true → k.addr ≠ e.addr) →
    e ∈ l.updates

namespace LineKept

theorem refl (circuits : List Circuit) (l : LampLine) : LineKept circuits l l :=
  ⟨rfl, List.prefix_rfl, fun _ he _ => he⟩

section Reads

variable {circuits : List Circuit} {old l : LampLine} (h : LineKept circuits old l)
include h

theorem stations : l.stations = old.stations := by
  rw [← h.rest]

theorem departed : l.departed = old.departed := by
  rw [← h.rest]

theorem down : l.down = old.down := by
  rw [← h.rest]

theorem tx : l.tx = old.tx := by
  rw [← h.rest]

theorem cursor : l.cursor = old.cursor := by
  rw [← h.rest]

end Reads

/-- A level that enters changes an entry in place, or joins at the tail (R130). -/
theorem addrs_enter (l : LampLine) (a : Fin 16) (level : Nat) (c : Fin 32) :
    l.updates.map Entry.addr <+: (l.enter a level c).updates.map Entry.addr := by
  unfold LampLine.enter
  split
  · dsimp only
    rw [LampLine.map_addr]
    intro e
    split <;> rfl
  · rw [List.map_append]
    exact List.prefix_append _ _

theorem enter {circuits : List Circuit} {old l : LampLine} (h : LineKept circuits old l) {k : Circuit}
    (hk : k ∈ circuits) (hs : k.cfg.switched = true) (level : Nat) :
    LineKept circuits old (l.enter k.addr level k.cfg.channel) where
  rest := by
    rw [← h.rest]
    unfold LampLine.enter
    split <;> rfl
  addrs := h.addrs.trans (addrs_enter l _ _ _)
  entries := fun e he hfree => LampLine.mem_enter_of_ne (h.entries e he hfree) (hfree k hk hs).symm

end LineKept

theorem LineKept.restart (s : State) (n : Fin 4) : KeptByRestart s anyZone fun u =>
    u.active = s.active ∧ LineKept (s.circuits n) (s.lampLine n) (u.lampLine n) where
  active := fun _ h => h.1
  zone := fun _ _ _ _ _ h => h
  aim := fun _ _ _ _ _ h => h
  command := fun k level u hk hs _ h => by
    refine ⟨(command_active k level u).trans h.1, ?_⟩
    rw [command_lampLine]
    split
    · next hn =>
      obtain ⟨rfl, -⟩ := hn
      exact h.2.enter hk hs _
    · exact h.2

theorem LampLine.not_carries {l : LampLine} (h : ∀ a, rd l.stations a = none) (a : Fin 16) (c : Fin 32) :
    ¬ l.carries a c = true := by
  rw [LampLine.carries, h]
  exact Bool.false_ne_true

/-- No level enters a line without stations. -/
theorem emptyLine_restart {s : State} {n : Fin 4} (hnone : ∀ a, rd (s.lampLine n).stations a = none) :
    KeptByRestart s anyZone fun u => u.active = s.active ∧ u.lampLine n = s.lampLine n where
  active := fun _ h => h.1
  zone := fun _ _ _ _ _ h => h
  aim := fun _ _ _ _ _ h => h
  command := fun k level u _ _ _ h => by
    refine ⟨(command_active k level u).trans h.1, ?_⟩
    rw [command_lampLine, if_neg]
    · exact h.2
    · rintro ⟨rfl, -, hc⟩
      exact LampLine.not_carries (h.2 ▸ hnone) _ _ hc

/-! ### One zone across a RESTART (R109) -/

/-- From `v` to `u` a zone of `s` stands, and the channels that its circuits alone name. -/
structure SameZone (s : State) (p : Fin 4) (z : Fin 5) (v u : State) : Prop where
  active : u.active = s.active
  zone : u.zone p z = v.zone p z
  channels : ∀ j ∈ s.circuits p, j.cfg.zone = some z → s.only j →
    u.channel j.cfg.channel = v.channel j.cfg.channel

theorem channel_ne_of_otherZones {s : State} {p : Fin 4} {z : Fin 5} {j k : Circuit} (hj : j ∈ s.circuits p)
    (hz : j.cfg.zone = some z) (ho : s.only j) (hk : k ∈ s.circuits k.portal)
    (ha : otherZones p z k.portal k.cfg.zone) : k.cfg.channel ≠ j.cfg.channel := fun hc => by
  obtain rfl := ho.2 _ k hk hc
  exact ha ⟨circuit_portal hj, hz⟩

theorem SameZone.restart (s : State) (p : Fin 4) (z : Fin 5) (v : State) :
    KeptByRestart s (otherZones p z) (SameZone s p z v) where
  active := fun _ h => h.active
  zone := fun q w x u ha h => by
    refine ⟨h.active, ?_, h.channels⟩
    rw [zone_setZone, if_neg]
    · exact h.zone
    · rintro ⟨rfl, rfl⟩
      exact ha ⟨rfl, rfl⟩
  aim := fun k x u hk ha h => by
    refine ⟨h.active, h.zone, fun j hj hz ho => ?_⟩
    rw [channel_setChannel, if_neg (channel_ne_of_otherZones hj hz ho hk ha)]
    exact h.channels j hj hz ho
  command := fun k level u hk _ ha h => by
    refine ⟨(command_active k level u).trans h.active, ?_, fun j hj hz ho => ?_⟩
    · rw [State.zone, command_zones]
      exact h.zone
    · rw [command_channel_of_ne (channel_ne_of_otherZones hj hz ho hk ha)]
      exact h.channels j hj hz ho

/-- At `u` a zone of `s` is still to act. -/
structure ZoneWaiting (s : State) (p : Fin 4) (z : Fin 5) (u : State) : Prop where
  lit : SameButLit s u
  same : SameZone s p z s u

theorem ZoneWaiting.restart (s : State) (p : Fin 4) (z : Fin 5) :
    KeptByRestart s (otherZones p z) (ZoneWaiting s p z) where
  active := fun _ h => h.same.active
  zone := fun q w x u ha h =>
    ⟨(SameButLit.restart s _).zone q w x u ha h.lit, (SameZone.restart s p z s).zone q w x u ha h.same⟩
  aim := fun k x u hk ha h =>
    ⟨(SameButLit.restart s _).aim k x u hk ha h.lit, (SameZone.restart s p z s).aim k x u hk ha h.same⟩
  command := fun k level u hk hs ha h =>
    ⟨(SameButLit.restart s _).command k level u hk hs ha h.lit,
      (SameZone.restart s p z s).command k level u hk hs ha h.same⟩

/-- At `u` a zone of `s` has acted, and the others have left what it wrote. -/
def ZoneActed (s : State) (p : Fin 4) (z : Fin 5) (u : State) : Prop :=
  ∃ v, ZoneWaiting s p z v ∧ SameZone s p z (restartZone p z v) u

theorem ZoneActed.restart (s : State) (p : Fin 4) (z : Fin 5) :
    KeptByRestart s (otherZones p z) (ZoneActed s p z) where
  active := fun _ ⟨_, _, h⟩ => h.active
  zone := fun q w x u ha ⟨v, hv, h⟩ => ⟨v, hv, (SameZone.restart s p z _).zone q w x u ha h⟩
  aim := fun k x u hk ha ⟨v, hv, h⟩ => ⟨v, hv, (SameZone.restart s p z _).aim k x u hk ha h⟩
  command := fun k level u hk hs ha ⟨v, hv, h⟩ =>
    ⟨v, hv, (SameZone.restart s p z _).command k level u hk hs ha h⟩

/-- Each zone acts once: the others leave what it needs before, and what it wrote after. -/
theorem restart_zoneActed (s : State) (p : Fin 4) (z : Fin 5) :
    ZoneActed s p z (forEach allPortals restartPortal s) := by
  have hQ := ZoneWaiting.restart s p z
  have hP := ZoneActed.restart s p z
  have elsewhere {q : Fin 4} (hq : q ≠ p) (w : Option (Fin 5)) : otherZones p z q w := fun h => hq h.1
  have beside {y : Fin 5} (hy : y ≠ z) : otherZones p z p (some y) := fun h => hy (Option.some.inj h.2)
  have loose : otherZones p z p none := fun h => Option.some_ne_none z h.2.symm
  have hzone (v : State) (hv : ZoneWaiting s p z v) : ZoneActed s p z (restartZone p z v) :=
    ⟨v, hv, ((SameButLit.restart s anyZone).restartZone trivial hv.lit).output.active, rfl,
      fun _ _ _ _ => rfl⟩
  have hportal (v : State) (hv : ZoneWaiting s p z v) : ZoneActed s p z (restartPortal p v) := by
    have hzones : ZoneActed s p z (forEach allZones (restartZone p) v) :=
      forEach_once allZones_nodup (mem_allZones z) hzone (fun y _ hy w hw => hQ.restartZone (beside hy) hw)
        (fun y _ hy w hw => hP.restartZone (beside hy) hw) v hv
    have hloose := hP.restartLoose loose hzones
    rwa [circuits_of_active ((hP.active _ hzones).trans (hQ.active v hv).symm)] at hloose
  exact forEach_once allPortals_nodup (mem_allPortals p) hportal
    (fun q _ hq v hv => hQ.restartPortal (elsewhere hq) hv)
    (fun q _ hq v hv => hP.restartPortal (elsewhere hq) hv) s ⟨rfl, rfl, rfl, fun _ _ _ _ => rfl⟩

section Zone

variable {s u : State} {p : Fin 4} {z : Fin 5}

theorem ZoneWaiting.set (h : ZoneWaiting s p z u) : u.set p = s.set p := congrArg (rd · p) h.same.active

theorem ZoneWaiting.tripped (h : ZoneWaiting s p z u) : u.tripped p = s.tripped p := by
  rw [State.tripped, State.tripUnit, h.lit.trips]
  rfl

/-- The switched target of a zone that waits, from the level of its switched channel (R109). -/
theorem ZoneWaiting.switchedLevel (h : ZoneWaiting s p z u)
    (ho : ∀ k, (s.set p).switchedOf p z = some k → s.only k) :
    u.switchedLevel p z = s.switchedLevel p z := by
  rw [State.switchedLevel, State.switchedLevel, h.set]
  cases hk : (s.set p).switchedOf p z with
  | none => rfl
  | some k =>
    obtain ⟨hkc, hkz, -⟩ := switchedOf_spec hk
    dsimp only
    rw [h.same.channels k hkc hkz (ho k hk)]

theorem ZoneWaiting.ready (h : ZoneWaiting s p z u) (ho : ∀ k ∈ s.circuits p, s.only k) :
    ZoneReady p z s u :=
  ⟨h.lit.output, h.same.zone, h.lit.trips, fun k hk hz => by
    rw [h.same.channels k hk hz (ho k hk)]
    exact ⟨rfl, rfl⟩⟩

theorem restart_zone_none (hz : s.zone p z = none) : (forEach allPortals restartPortal s).zone p z = none := by
  obtain ⟨v, hv, ht⟩ := restart_zoneActed s p z
  have hvz := hv.same.zone.trans hz
  rw [ht.zone, restartZone_of_none hvz, hvz]

theorem restart_zone_tripped {zn : Zone} (hz : s.zone p z = some zn) (ht : s.tripped p = true)
    (ho : ∀ k, (s.set p).switchedOf p z = some k → s.only k) :
    (forEach allPortals restartPortal s).zone p z = some
      { zn.restarted ((s.set p).topLevel z) (s.switchedLevel p z) with state := .held } := by
  obtain ⟨v, hv, hs⟩ := restart_zoneActed s p z
  rw [hs.zone, restartZone_of_some (hv.same.zone.trans hz), if_pos (hv.tripped.trans ht), zone_setZone,
    if_pos ⟨rfl, rfl⟩, hv.set, hv.switchedLevel ho]

/-- A zone whose portal is not TRIPPED plans afresh toward the top stage. -/
theorem restart_zone_planned {zn : Zone} (hz : s.zone p z = some zn) (ht : s.tripped p = false)
    (ho : ∀ k ∈ s.circuits p, s.only k) :
    PlannedFrom p z ((s.set p).topLevel z) (s.switchedLevel p z) s (forEach allPortals restartPortal s) := by
  obtain ⟨v, hv, hs⟩ := restart_zoneActed s p z
  have hd : Distinct (s.circuits p) := fun k hk j hj hc => (ho k hk).2 p j hj hc
  have hready := hv.ready ho
  have honly (k : Circuit) (hk : (s.set p).switchedOf p z = some k) : s.only k :=
    ho k (switchedOf_spec hk).1
  have hact : restartZone p z v = plan p z (zn.restarted ((s.set p).topLevel z) (s.switchedLevel p z)) v := by
    rw [restartZone_of_some (hv.same.zone.trans hz), if_neg (by simp [hv.tripped, ht]), hv.set,
      hv.switchedLevel honly]
  have hgives := plan_gives_unconfirmed (p := p) (z := z) (s := v)
    (zn := zn.restarted ((s.set p).topLevel z) (s.switchedLevel p z)) rfl rfl
  rw [← hact, boostShare_of_active hv.same.active] at hgives
  refine plannedFrom_of_planned (zn := zn.restarted ((s.set p).topLevel z) (s.switchedLevel p z)) rfl rfl rfl
    rfl rfl rfl ?_ (fun k hk => ?_) (fun k hk => ?_)
  · rw [hs.zone, hact, plan_zone_eq (hready.circuits ▸ hd), hready.plans]
  · obtain ⟨hmem, hkz, -⟩ := mem_dimmed.mp hk
    rw [hs.channels k hmem hkz (ho k hmem), ← hv.same.channels k hmem hkz (ho k hmem)]
    exact hgives.1 k (by rwa [dimmed_of_active hv.same.active]) (only_of_active hv.same.active (ho k hmem))
  · obtain ⟨hmem, hkz, -⟩ := switchedOf_spec hk
    rw [hs.channels k hmem hkz (ho k hmem)]
    exact (hgives.2 k (hv.set ▸ hk) (only_of_active hv.same.active (ho k hmem))).1

end Zone

end Sys2Proof.Machine
end

section
namespace Sys2Proof.Machine

/-! ### The part after a RESTART (R156) -/

/-- Whatever lighting, trips and store write it keeps, a part that is reset holds the values of every reset,
if no channel is in HAND. -/
theorem resetCommon_afterReset (cause : ResetCause) (s : State) (zones : Vector (Vector (Option Zone) 5) 4)
    (channels : Vector Channel 32) (lines : Vector LampLine 4) (trips : Vector TripUnit 4)
    (storing : Option StoreWrite) (hhand : ∀ c, (rd channels c).hand = none) :
    AfterReset cause
      { resetCommon cause s.active s with
        zones := zones, channels := channels, lines := lines, trips := trips, storing := storing } := by
  refine ⟨rfl, rfl, rfl, rfl, fun m => ?_, fun p => ?_, fun p => rd_tab _ p, fun p => ?_, fun p => rd_tab _ p,
    fun p => rd_tab _ p, fun seat => rd_replicate _ _, hhand⟩
  · rw [meterPortal_isSome, State.meter, resetCommon, rd_tab, meterAfter]
    split <;> simp_all [Meter.restart, Meter.unused]
  · simp [resetCommon, State.edit, Edit.none]
  · simp [resetCommon, State.eval, Evaluator.reset]

/-- What a plan gives is read from the active sets, the channels and the time before it, and from the zones
and the channels after it. -/
theorem PlannedFrom.congr {p : Fin 4} {z : Fin 5} {working : Nat} {on : Bool} {s s' t t' : State}
    (h : PlannedFrom p z working on s t) (hactive : s'.active = s.active) (hchannels : s'.channels = s.channels)
    (hnow : s'.now = s.now) (hzones : t'.zones = t.zones) (hafter : t'.channels = t.channels) :
    PlannedFrom p z working on s' t' := by
  cases s
  cases s'
  cases t
  cases t'
  dsimp only at hactive hchannels hnow hzones hafter
  subst hactive hchannels hnow hzones hafter
  exact h

section Restart

variable (s : State)

theorem restartPart_lit : SameButLit s.restarted (restartPart s) :=
  restartPart_eq s ▸ (SameButLit.restart s.restarted anyZone).restart rfl

theorem restart_lit : SameButLit s.restarted (beginTransactions (restartPart s)) :=
  beginTransactions_keeps (fun _ _ h => h) _ (restartPart_lit s)

theorem restart_channel (c : Fin 32) :
    (beginTransactions (restartPart s)).channel c = (restartPart s).channel c := by
  rw [State.channel, beginTransactions_channels]

theorem restart_zone (p : Fin 4) (z : Fin 5) :
    (beginTransactions (restartPart s)).zone p z = (restartPart s).zone p z := by
  rw [State.zone, beginTransactions_zones]

theorem restart_lampLine (n : Fin 4) :
    (beginTransactions (restartPart s)).lampLine n = ((restartPart s).lampLine n).begin 0 := by
  rw [beginTransactions_lampLine, (restartPart_lit s).output.now]
  rfl

theorem restarted_channel (c : Fin 32) : s.restarted.channel c = { s.channel c with hand := none } := rd_tab _ c

theorem restarted_tripUnit (p : Fin 4) : s.restarted.tripUnit p = (s.tripUnit p).keep s.now := rd_tab _ p

theorem restarted_lampLine (n : Fin 4) : s.restarted.lampLine n = (s.lampLine n).keep s.now := rd_tab _ n

theorem restarted_tripped (p : Fin 4) : s.restarted.tripped p = s.tripped p := by
  rw [State.tripped, restarted_tripUnit]
  rfl

theorem restarted_switchedLevel (p : Fin 4) (z : Fin 5) :
    s.restarted.switchedLevel p z = s.switchedLevel p z := by
  rw [State.switchedLevel]
  simp only [restarted_channel]
  rfl

/-- The switched target of a zone, as the statement reads it. -/
theorem switchedLevel_eq_any (p : Fin 4) (z : Fin 5) : s.switchedLevel p z =
    ((s.circuits p).find? fun k => k.cfg.zone == some z && k.cfg.switched).any fun k =>
      (s.channel k.cfg.channel).level.getD 0 != 0 := by
  have hfind : (s.set p).switchedOf p z =
      (s.circuits p).find? fun k => k.cfg.zone == some z && k.cfg.switched := rfl
  rw [State.switchedLevel, ← hfind]
  cases (s.set p).switchedOf p z <;> rfl

theorem restart_hand (c : Fin 32) : ((beginTransactions (restartPart s)).channel c).hand = none := by
  rw [restart_channel]
  refine (((SameHands.restart s.restarted).restart ⟨rfl, fun _ => rfl⟩).2 c).trans ?_
  rw [restarted_channel]

theorem restart_afterReset : AfterReset .restart (beginTransactions (restartPart s)) := by
  rw [(restart_lit s).eq_with]
  exact resetCommon_afterReset .restart s _ _ _ _ _ (restart_hand s)

theorem restart_level {c : Fin 32}
    (hc : ∀ q, ∀ k ∈ s.circuits q, k.cfg.channel = c → k.cfg.switched = false) :
    ((beginTransactions (restartPart s)).channel c).level = (s.channel c).level := by
  rw [restart_channel]
  refine ((level_restart (s := s.restarted) hc).restart ⟨rfl, rfl⟩).2.trans ?_
  rw [restarted_channel]

/-- A RESTART writes of a lamp line its update set alone. -/
theorem restartPart_lineKept (n : Fin 4) :
    LineKept (s.circuits n) ((s.lampLine n).keep s.now) ((restartPart s).lampLine n) := by
  rw [← restarted_lampLine]
  exact ((LineKept.restart s.restarted n).restart ⟨rfl, .refl _ _⟩).2

theorem LampLine.keep_of_idle {l : LampLine} (h : l.tx = none) (now : Nat) : l.keep now = l := by
  rw [keep, h, Option.map_none, ← h]

theorem restart_emptyLine {n : Fin 4} (htx : (s.lampLine n).tx = none) (hu : (s.lampLine n).updates = [])
    (hnone : ∀ a, rd (s.lampLine n).stations a = none) :
    (beginTransactions (restartPart s)).lampLine n = s.lampLine n := by
  have hkeep : s.restarted.lampLine n = s.lampLine n :=
    (restarted_lampLine s n).trans (LampLine.keep_of_idle htx _)
  have hsame : (restartPart s).lampLine n = s.lampLine n :=
    ((emptyLine_restart (s := s.restarted) (hkeep ▸ hnone)).restart ⟨rfl, rfl⟩).2.trans hkeep
  rw [restart_lampLine, hsame, LampLine.begin_of_nothing htx hu (LampLine.nextPoll_of_empty hnone)]

/-- A transaction in progress goes on, and its line begins no other. -/
theorem restart_busyLine {n : Fin 4} {x : Transaction} (htx : (s.lampLine n).tx = some x) :
    ((beginTransactions (restartPart s)).lampLine n).tx = some { x with phase := x.phase.rebase s.now } ∧
      LineKept (s.circuits n) ((s.lampLine n).keep s.now) ((beginTransactions (restartPart s)).lampLine n) := by
  have hkept := restartPart_lineKept s n
  have hbusy : ((restartPart s).lampLine n).tx = some { x with phase := x.phase.rebase s.now } := by
    rw [hkept.tx, LampLine.keep, htx, Option.map_some]
  rw [restart_lampLine, LampLine.begin_busy hbusy]
  exact ⟨hbusy, hkept⟩

end Restart

/-- Settles O5: the frame of a RESTART, each lamp line under the commands of the SWITCHED channels, and each
zone as it acts by itself. -/
theorem restartFromSeatLKeepsSetsTripsAndLines : Obligations.RestartFromSeatLKeepsSetsTripsAndLines := by
  intro s on
  have hon (p : Fin 4) (z : Fin 5) : s.restarted.switchedLevel p z = on p z :=
    (restarted_switchedLevel s p z).trans (switchedLevel_eq_any s p z)
  have hlit := restart_lit s
  refine ⟨fun seat hseat hp => ?_, fun hp => ⟨beginTransactions (restartPart s), ?_, restart_afterReset s,
    hlit.output.active, ?_, ?_, ?_, ?_, ?_, fun seat => ?_, fun p => ?_, fun n => ⟨?_, ?_, ?_, ?_, ?_⟩,
    fun c => restart_level s, fun p z zn hz ht ho => ?_, fun p z zn hz ht ho => ?_, fun p z hz => ?_⟩⟩
  · exact (if_pos hseat).trans (congrArg _ ((inHeader_run hp _).trans (refuse_eq_denied _ _ _ _)))
  · exact congrArg done (inHeader_run hp _)
  · rw [hlit.eq_with]; rfl
  · rw [hlit.eq_with]; rfl
  · rw [hlit.eq_with]; rfl
  · rw [hlit.eq_with]; rfl
  · rw [hlit.eq_with]; rfl
  · rw [hlit.eq_with]
    exact rd_replicate _ _
  · rw [hlit.eq_with]
    exact restarted_tripUnit s p
  · rw [restart_lampLine, LampLine.begin_stations, (restartPart_lineKept s n).stations]
    rfl
  · rw [restart_lampLine, LampLine.begin_departed, (restartPart_lineKept s n).departed]
    rfl
  · rw [restart_lampLine, LampLine.begin_down, (restartPart_lineKept s n).down]
    rfl
  · exact restart_emptyLine s
  · intro x hx
    obtain ⟨htx, hkept⟩ := restart_busyLine s hx
    exact ⟨hkept.cursor, htx, hkept.addrs, hkept.entries⟩
  · rw [restart_zone, ← hon]
    exact restart_zone_tripped (s := s.restarted) hz ((restarted_tripped s p).trans ht) ho
  · rw [← hon]
    exact (restart_zone_planned (s := s.restarted) hz ((restarted_tripped s p).trans ht) ho).congr rfl rfl rfl
      (beginTransactions_zones _) (beginTransactions_channels _)
  · rw [restart_zone]
    exact restart_zone_none (s := s.restarted) hz

end Sys2Proof.Machine
end

section
namespace Sys2Proof.Machine

/-! ### Shadows with grants (O17) -/

namespace GrantsWf

variable {s : State} (h : GrantsWf s)
include h

/-- A write to what the Set Store holds for one portal, with a shadow exactly while there is a holder. -/
theorem setEdit (p : Fin 4) {x : Edit} (hx : x.holder.isSome = x.shadow.isSome) :
    GrantsWf (s.setEdit p x) := by
  intro q
  rw [State.edit, State.setEdit_edits, rd_wr]
  split
  · exact hx
  · exact h q

theorem holder_of_shadow {p : Fin 4} {x : Shadow} (hx : (s.edit p).shadow = some x) :
    (s.edit p).holder.isSome = true := by
  rw [h p, hx, Option.isSome_some]

/-- A shadow that is replaced stays one (R162, R165). -/
theorem replaceShadow (p : Fin 4) {old : Shadow} (hold : (s.edit p).shadow = some old) (new : Shadow) :
    GrantsWf (s.setEdit p { s.edit p with shadow := some new }) :=
  h.setEdit p (h.holder_of_shadow hold)

/-- A COMMIT locks the shadow of a portal that has one (R164). -/
theorem makePending (seat : Seat) (p : Fin 4) : GrantsWf (makePending seat p s) := by
  rw [makePending_eq]
  refine h.setEdit p ?_
  cases hx : (s.edit p).shadow with
  | none =>
    rw [Edit.committed, hx]
    exact h p
  | some x =>
    rw [Edit.committed, hx]
    exact h.holder_of_shadow hx

/-- A DISCARD makes a shadow EDITABLE and drops none (R166). -/
theorem discardOne (p : Fin 4) : GrantsWf (discardOne p s) :=
  h.setEdit p <| (h p).trans Option.isSome_map.symm

/-- An adoption replaces a LOCKED shadow (R165). -/
theorem refreshShadow (p : Fin 4) : GrantsWf (refreshShadow p s) := by
  unfold Machine.refreshShadow
  dsimp only
  cases hx : (s.edit p).shadow with
  | none => exact h
  | some x =>
    split
    · exact h.replaceShadow p hx _
    · exact h

end GrantsWf

/-- After a reset no grant is held and there is no shadow (R158). -/
theorem grantsWf_of_reset {s : State} (h : s.edits = Vector.replicate 4 Edit.none) : GrantsWf s :=
  fun p => by rw [State.edit, h, rd_replicate]; rfl

/-- What the daylight path and the lighting of a portal write is none to the grants. -/
theorem GrantsWf.source (p : Fin 4) : KeptBySource p (atPortal p) GrantsWf where
  place := fun _ hk => hk
  scope := fun _ _ _ hk => circuit_portal hk
  zone := fun _ _ _ h => h
  channel := fun _ _ _ _ h => h
  enter := fun _ _ _ _ h => h
  post := fun _ _ _ _ h => h
  selector := fun _ _ h => h
  arbiter := fun _ _ _ h => h
  eval := fun _ _ h => h
  base := fun _ _ h => h

theorem powerUp_grantsWf (cause : ResetCause) (s : State) : GrantsWf (powerUp cause s) := by
  have posted (u : State) (b : Bool) (hu : GrantsWf u) :
      GrantsWf (if b then postAll .storeInvalid u else u) := by
    cases b <;> exact hu
  exact posted _ _ (grantsWf_of_reset rfl)

theorem restartPart_grantsWf (s : State) : GrantsWf (restartPart s) :=
  forEach_keeps (fun p _ u hu => restartPortal_keeps (GrantsWf.source p).toKeptByLight u hu) _
    (grantsWf_of_reset rfl)

/-- The single writes: grants come and go with their shadows, and no other write is to either. -/
theorem GrantsWf.commands : KeptByCommands GrantsWf where
  post := fun _ _ _ _ h => h
  port := fun _ _ _ h => h
  mask := fun _ _ _ h => h
  pop := fun _ _ h => h
  meter := fun _ _ _ _ h => h
  eval := fun _ _ _ h => h
  base := fun _ _ _ h => h
  selector := fun _ _ _ h => h
  arbiter := fun _ _ _ _ h => h
  remove := fun _ _ _ h => h
  push := fun seat hd q s _ h => acceptPush_keeps GrantsWf.source (fun _ _ _ h => h) (fun _ _ _ h => h)
    (fun _ _ h => h) seat hd q s h
  zone := fun _ _ _ _ h => h
  channel := fun _ _ _ h => h
  tx := fun _ _ _ h => h
  departed := fun _ _ _ h => h
  station := fun _ _ _ _ _ h => h
  enter := fun _ _ _ _ _ h => h
  begin := fun _ _ h => h
  grant := fun _ p _ h => h.setEdit p rfl
  ungrant := fun p _ h => h.setEdit p rfl
  shadow := fun p _ new _ hold h => h.replaceShadow p hold new
  pending := fun seat p _ h => h.makePending seat p
  discard := fun p _ h => h.discardOne p
  store := fun _ _ _ h => h
  free := fun _ _ h => h
  clock := fun _ _ _ h => h
  powerUp := fun cause s _ => powerUp_grantsWf cause s
  restart := fun s _ => restartPart_grantsWf s
  freezes := fun _ _ h => h
  trip := fun _ _ _ h => h
  pins := fun _ _ h => h
  down := fun _ _ _ h => h
  leave := fun _ _ _ _ _ h => h
  join := fun _ _ _ _ _ h => h
  refresh := fun p _ h => h.refreshShadow p
  activate := fun p _ s _ h => h.setEdit (x := { s.edit p with pendingSet := none }) p (h p)

/-- Settles O17: a grant and its shadow are written together, and a shadow is only ever replaced by
another. -/
theorem everyStepKeepsShadowsWithGrants : Obligations.EveryStepKeepsShadowsWithGrants := fun s t hs ht =>
  step_keeps GrantsWf.commands.parts (fun _ _ h => h) s hs t ht

end Sys2Proof.Machine
end

section
namespace Sys2Proof.Machine

/-! ### What a command writes of the named portals' edit states (R158, R161, R166) -/

/-- What the Set Store holds for each of the portals named is written from its active set and what it
held. -/
def State.edited (s : State) (l : List (Fin 4)) (new : PortalSet → Edit → Edit) : State :=
  { s with edits := tab fun p => if p ∈ l then new (s.set p) (s.edit p) else s.edit p }

/-- A grant is given to a seat, with an EDITABLE copy of the active set (R158). -/
def Edit.given (seat : Seat) (active : PortalSet) (e : Edit) : Edit :=
  { e with holder := some seat, shadow := some { set := active.copied, locked := false } }

/-- The grant ends, and the shadow with it (R161). -/
def Edit.released (e : Edit) : Edit := { e with holder := .none, shadow := .none }

/-- The pending set is dropped, and the shadow is EDITABLE (R166). -/
def Edit.discarded (e : Edit) : Edit :=
  { e with pendingSet := .none, shadow := e.shadow.map fun x => { x with locked := false } }

section Edited

variable {new : PortalSet → Edit → Edit} {l : List (Fin 4)}

theorem setEdit_edit (s : State) (p q : Fin 4) (x : Edit) :
    (s.setEdit p x).edit q = if p = q then x else s.edit q := rd_wr _ _ _ _

theorem edited_edit (s : State) (l : List (Fin 4)) (p : Fin 4) :
    (s.edited l new).edit p = if p ∈ l then new (s.set p) (s.edit p) else s.edit p := rd_tab _ _

theorem edited_rest (s : State) (l : List (Fin 4)) : { s.edited l new with edits := s.edits } = s := rfl

theorem edited_nil (s : State) : s.edited [] new = s := by
  have hedits : (tab fun p => s.edit p) = s.edits := bank_ext fun p => rd_tab _ p
  simp [State.edited, hedits]

/-- To write one portal and then others is to write them all. -/
theorem edited_cons {a : Fin 4} (ha : a ∉ l) (s : State) :
    (s.setEdit a (new (s.set a) (s.edit a))).edited l new = s.edited (a :: l) new := by
  refine congrArg (fun edits => { s with edits := edits }) (bank_ext fun p => ?_)
  rw [rd_tab, rd_tab, setEdit_edit, State.set, State.setEdit_active]
  by_cases hp : a = p
  · subst hp
    simp [ha]
  · simp [hp, Ne.symm hp]

/-- A repetition that writes what the Set Store holds for each portal once. -/
theorem forEach_edited {f : Fin 4 → State → State}
    (hf : ∀ p s, f p s = s.setEdit p (new (s.set p) (s.edit p))) (hn : l.Nodup) (s : State) :
    forEach l f s = s.edited l new := by
  induction l generalizing s with
  | nil => exact (edited_nil s).symm
  | cons a rest ih =>
    obtain ⟨ha, hrest⟩ := List.nodup_cons.mp hn
    rw [forEach, ih hrest, hf, edited_cons ha]

end Edited

theorem forEach_giveGrant (seat : Seat) {l : List (Fin 4)} (hn : l.Nodup) (s : State) :
    forEach l (giveGrant seat) s = s.edited l (Edit.given seat) :=
  forEach_edited (f := giveGrant seat) (fun _ _ => rfl) hn s

theorem forEach_endGrant {l : List (Fin 4)} (hn : l.Nodup) (s : State) :
    forEach l endGrant s = s.edited l fun _ => Edit.released :=
  forEach_edited (f := endGrant) (fun _ _ => rfl) hn s

theorem forEach_discardOne {l : List (Fin 4)} (hn : l.Nodup) (s : State) :
    forEach l discardOne s = s.edited l fun _ => Edit.discarded :=
  forEach_edited (f := discardOne) (fun _ _ => rfl) hn s

/-! ### The checks of grants -/

section Checks

variable {seat : Seat} {l : List (Fin 4)} {s : State}

theorem ne_nil_of_find? {test : Fin 4 → Bool} {p : Fin 4} (h : l.find? test = some p) : l ≠ [] :=
  List.ne_nil_of_mem (List.mem_of_find?_eq_some h)

theorem holdsGrant_iff {p : Fin 4} : s.holdsGrant seat p = true ↔ (s.edit p).holder = some seat :=
  beq_iff_eq

theorem grantFree_iff {p : Fin 4} : s.grantFree p = true ↔ (s.edit p).holder = none := beq_iff_eq

/-- No portal fails the check that the seat holds its grant. -/
theorem find?_notHolder_none (h : ∀ p ∈ l, (s.edit p).holder = some seat) :
    (l.find? fun p => !s.holdsGrant seat p) = none :=
  List.find?_eq_none.mpr fun p hp => by rw [holdsGrant_iff.mpr (h p hp)]; exact Bool.false_ne_true

/-- No portal fails the check that no other seat holds its grant. -/
theorem find?_heldByOther_none (h : ∀ p ∈ l, ∀ x, (s.edit p).holder = some x → x = seat) :
    l.find? (s.heldByOther seat) = none :=
  List.find?_eq_none.mpr fun p hp => by
    rw [State.heldByOther, Option.any_eq_true]
    rintro ⟨x, hx, hne⟩
    exact bne_iff_ne.mp hne (h p hp x hx)

theorem any_holdsGrant_iff :
    allPortals.any (s.holdsGrant seat) = true ↔ ∃ p, (s.edit p).holder = some seat := by
  simp only [List.any_eq_true, mem_allPortals, true_and, holdsGrant_iff]

end Checks

/-! ### TAKE_GRANT and RELEASE_GRANT (O15) -/

section Grants

variable {seat : Seat} {h : Header} {s : State}

theorem takeGrantCommand_refused {p : Fin 4} (hp : h.portals.find? (s.heldByOther seat) = some p) :
    takeGrantCommand seat h s = denied seat .held p.val s := by
  rw [takeGrantCommand, if_neg (ne_nil_of_find? hp), hp]
  rfl

theorem takeGrantCommand_accepted (hne : h.portals ≠ [])
    (hfree : ∀ p ∈ h.portals, ∀ x, (s.edit p).holder = some x → x = seat) :
    takeGrantCommand seat h s = granted seat (maskOf (h.portals.filter s.grantFree)) false
      (s.edited (h.portals.filter s.grantFree) (Edit.given seat)) := by
  rw [takeGrantCommand, if_neg hne, find?_heldByOther_none hfree]
  dsimp only
  rw [accept_eq_granted, forEach_giveGrant seat ((portals_nodup h).filter _)]

theorem releaseGrantCommand_refused {p : Fin 4}
    (hp : (h.portals.find? fun q => !s.holdsGrant seat q) = some p) :
    releaseGrantCommand seat h s = denied seat .notHolder p.val s := by
  rw [releaseGrantCommand, if_neg (ne_nil_of_find? hp), hp]
  rfl

theorem releaseGrantCommand_accepted (hne : h.portals ≠ [])
    (hheld : ∀ p ∈ h.portals, (s.edit p).holder = some seat) :
    releaseGrantCommand seat h s =
      granted seat 0 false (s.edited h.portals fun _ => Edit.released) := by
  rw [releaseGrantCommand, if_neg hne, find?_notHolder_none hheld]
  dsimp only
  rw [accept_eq_granted, forEach_endGrant (portals_nodup h)]

end Grants

/-- Settles O15: each command is refused by its first check that fails, or writes every portal that it
names. -/
theorem takeAndReleaseGrantAreAllOrNothing : Obligations.TakeAndReleaseGrantAreAllOrNothing := by
  refine ⟨fun seat h s hp => ?_, fun seat h s hp => ?_⟩
  · have hrun {t : State} (ht : takeGrantCommand seat h s = t) : exec (.takeGrant seat h) s = .next t :=
      congrArg _ ((inHeader_run hp _).trans ht)
    refine ⟨fun he => hrun (if_pos he), fun p hheld => hrun (takeGrantCommand_refused hheld),
      fun hne hfree => ⟨_, hrun (takeGrantCommand_accepted hne hfree), fun p => ?_, edited_rest s _⟩⟩
    rw [edited_edit]
    simp only [List.mem_filter, grantFree_iff]
    rfl
  · have hrun {t : State} (ht : releaseGrantCommand seat h s = t) :
        exec (.releaseGrant seat h) s = .next t := congrArg _ ((inHeader_run hp _).trans ht)
    exact ⟨fun he => hrun (if_pos he), fun p hother => hrun (releaseGrantCommand_refused hother),
      fun hne hheld => ⟨_, hrun (releaseGrantCommand_accepted hne hheld), edited_edit s _,
        edited_rest s _⟩⟩

end Sys2Proof.Machine
end

section
namespace Sys2Proof.Machine

/-! ### COMMIT's checks (O21) -/

section Checks

variable {l : List (Fin 4)} {s : State}

theorem find?_shadowLocked_none (h : ∀ p ∈ l, s.shadowLocked p = false) :
    l.find? s.shadowLocked = none :=
  List.find?_eq_none.mpr fun p hp => Bool.eq_false_iff.mp (h p hp)

theorem find?_hasPending_none (h : ∀ p ∈ l, (s.edit p).pendingSet = none) :
    l.find? s.hasPending = none :=
  List.find?_eq_none.mpr fun p hp => by rw [State.hasPending, h p hp]; exact Bool.false_ne_true

end Checks

/-- Settles O21: each check is reached once those before it have found nothing. -/
theorem commitRefusesInTheOrderOfItsChecks : Obligations.CommitRefusesInTheOrderOfItsChecks := by
  intro seat h s hp deny held editable clear
  have hdeny {code : ResultCode} {value : Nat}
      (ht : commitCommand seat h s = refuseCommit seat h code value s) : deny code value :=
    congrArg done ((inHeader_run hp _).trans ht)
  refine ⟨fun he => hdeny (if_pos he), fun p hother => hdeny ?_, fun p ⟨hne, hheld⟩ hlocked => hdeny ?_,
    fun p ⟨hne, hheld⟩ hopen hbusy => hdeny ?_,
    fun value ⟨hne, hheld⟩ hopen hclear hinvalid => hdeny ?_⟩
  · simp only [commitCommand, if_neg (ne_nil_of_find? hother), hother]
  · simp only [commitCommand, if_neg hne, find?_notHolder_none hheld, hlocked]
  · simp only [commitCommand, if_neg hne, find?_notHolder_none hheld, find?_shadowLocked_none hopen, hbusy]
  · simp only [commitCommand, if_neg hne, find?_notHolder_none hheld, find?_shadowLocked_none hopen,
      find?_hasPending_none hclear, hinvalid]

end Sys2Proof.Machine
end

section
namespace Sys2Proof.Machine

/-! ### DISCARD (O26) -/

section Discard

variable {seat : Seat} {h : Header} {s : State}

theorem discardCommand_refused {p : Fin 4}
    (hp : (h.portals.find? fun q => !s.holdsGrant seat q) = some p) :
    discardCommand seat h s = denied seat .notHolder p.val s := by
  rw [discardCommand, if_neg (ne_nil_of_find? hp), hp]
  rfl

theorem discardCommand_accepted (hne : h.portals ≠ [])
    (hheld : ∀ p ∈ h.portals, (s.edit p).holder = some seat) :
    discardCommand seat h s = granted seat (maskOf (h.portals.filter s.hasPending))
      (h.portals.filter s.hasPending != []) (s.edited h.portals fun _ => Edit.discarded) := by
  rw [discardCommand, if_neg hne, find?_notHolder_none hheld]
  dsimp only
  rw [accept_eq_granted, forEach_discardOne (portals_nodup h)]
  cases h.portals.filter s.hasPending <;> rfl

end Discard

/-- Settles O26: the command is refused by its first check that fails, or writes every portal that it
names. -/
theorem discardDropsThePendingSets : Obligations.DiscardDropsThePendingSets := by
  intro seat h s hp
  have hrun {t : State} (ht : discardCommand seat h s = t) : exec (.discard seat h) s = .next t :=
    congrArg _ ((inHeader_run hp _).trans ht)
  exact ⟨fun he => hrun (if_pos he), fun p hother => hrun (discardCommand_refused hother),
    fun hne hheld => ⟨_, hrun (discardCommand_accepted hne hheld), edited_edit s _, edited_rest s _⟩⟩

end Sys2Proof.Machine
end

section
namespace Sys2Proof.Machine

/-! ### STORE and the end of its write (O27) -/

section Store

variable {seat : Seat} {s : State}

theorem storeCommand_notHolder (h : ∀ p, (s.edit p).holder ≠ some seat) :
    storeCommand seat s = denied seat .notHolder 0 s := by
  have hnone : allPortals.any (s.holdsGrant seat) = false :=
    Bool.eq_false_iff.mpr fun hany => (any_holdsGrant_iff.mp hany).elim h
  rw [storeCommand, hnone]
  rfl

/-- A seat that holds a grant has its STORE refused or begun by the store state. -/
theorem storeCommand_holder (h : ∃ p, (s.edit p).holder = some seat) :
    storeCommand seat s =
      if s.storing.isSome then denied seat .storeBusy 0 s
      else answer seat .ok 0 true false (s.raisedFlag seat) true
        { s with
          image := none
          storing := some { seat := seat, time := s.tenths, snapshot := s.active
                            latest := s.now + 2000, silenced := false } } := by
  rw [storeCommand, any_holdsGrant_iff.mpr h, Bool.not_true, if_neg Bool.false_ne_true]
  simp only [accept_eq_answer, Bool.or_false, refuse_eq_denied]
  rfl

/-- The verify decides the image, and the write's seat is told unless a RESTART silenced it. -/
theorem exec_storeWriteEnd {w : StoreWrite} (hw : s.storing = some w) (verified : Bool) :
    let ended : State := { s with image := if verified then some w.snapshot else none, storing := none }
    exec (.storeWriteEnd verified) s =
      .next (if w.silenced then ended
        else postTo w.seat (if verified then .storeDone else .storeFailed) ended) := by
  change execStoreWriteEnd verified s = _
  rw [execStoreWriteEnd, hw]
  exact (apply_ite Host.Outcome.next _ _ _).symm

end Store

/-- Settles O27: STORE by its two checks, the end of its write by the verify. -/
theorem storeWritesTheActiveSetsAndEndsWithItsVerify :
    Obligations.StoreWritesTheActiveSetsAndEndsWithItsVerify := by
  refine ⟨fun seat s hp => ?_, fun w s hw => ?_⟩
  · have hrun {t : State} (ht : storeCommand seat s = t) : exec (.store seat) s = .next t :=
      congrArg _ ((inHeader_run hp _).trans ht)
    refine ⟨fun hnone => hrun (storeCommand_notHolder hnone), fun hheld hbusy => hrun ?_,
      fun hheld hidle => hrun ?_⟩
    · rw [storeCommand_holder hheld, if_pos (Option.isSome_iff_ne_none.mpr hbusy)]
    · rw [storeCommand_holder hheld, hidle]
      rfl
  · have hend := exec_storeWriteEnd hw
    refine ⟨fun hsilenced => ?_, fun hsilenced => ?_⟩ <;> rw [hend, hend, hsilenced] <;> exact ⟨rfl, rfl⟩

end Sys2Proof.Machine
end

section
namespace Sys2Proof.Machine

/-! ### Placing and popping (O13) -/

namespace EventQueue

section Place

variable {q : EventQueue} {e : Event} {time : Nat}

theorem place_of_keptOut (h : e.keptOut q.mask = true) : q.place e time = q := if_pos h

/-- An overflowed queue numbers an event and discards it (R172). -/
theorem place_of_overflowed (h : e.keptOut q.mask = false) (ho : q.overflowed = true) :
    q.place e time = { q with seq := (q.seq + 1) % 65536 } := by
  rw [place, if_neg (Bool.eq_false_iff.mp h), if_pos ho]
  rfl

theorem place_of_short (h : e.keptOut q.mask = false) (ho : q.overflowed = false)
    (hlen : q.records.length < 31) :
    q.place e time =
      { q.append { event := e, seq := q.seq, time := time } with seq := (q.seq + 1) % 65536 } := by
  rw [place, if_neg (Bool.eq_false_iff.mp h), if_neg (Bool.eq_false_iff.mp ho), if_pos hlen]
  rfl

/-- The event that finds 31 records is displaced by an OVERFLOW record of its kind (R172). -/
theorem place_of_full (h : e.keptOut q.mask = false) (ho : q.overflowed = false)
    (hlen : 31 ≤ q.records.length) :
    q.place e time =
      { q.append { event := .overflow e.kind, seq := q.seq, time := time } with
        seq := (q.seq + 1) % 65536, overflowed := true } := by
  rw [place, if_neg (Bool.eq_false_iff.mp h), if_neg (Bool.eq_false_iff.mp ho), if_neg hlen.not_gt]
  rfl

end Place

theorem headIsOverflow_of_cons {q : EventQueue} {r : EventRecord} {rest : List EventRecord}
    (h : q.records = r :: rest) : q.headIsOverflow = r.isOverflow := by
  obtain ⟨e, seq, time⟩ := r
  rw [headIsOverflow, h]
  cases e <;> rfl

theorem pop_of_cons {q : EventQueue} {r : EventRecord} {rest : List EventRecord}
    (h : q.records = r :: rest) :
    q.pop =
      { q with
        records := rest
        overflowed := q.overflowed && !r.isOverflow
        attention := q.attention && !rest.isEmpty } := by
  rw [pop, headIsOverflow_of_cons h, h, List.tail_cons]

end EventQueue

/-- Settles O13: the four cases of a placement, and the pop by the head record. -/
theorem eventsArePlacedAndPopped : Obligations.EventsArePlacedAndPopped :=
  ⟨fun _ _ _ => ⟨EventQueue.place_of_keptOut, EventQueue.place_of_overflowed,
    EventQueue.place_of_short, EventQueue.place_of_full⟩, fun _ _ _ => EventQueue.pop_of_cons⟩

/-! ### Well-formed queues (O14) -/

/-- A queue after a reset holds RESTARTED alone (R175). -/
theorem EventQueue.reset_wf (cause : ResetCause) : (EventQueue.reset cause).wf :=
  ⟨[{ event := .restarted cause, seq := 0, time := 0 }], none, rfl, by simp,
    by simp [EventRecord.isOverflow], by simp, rfl, by simp [EventQueue.reset], rfl⟩

namespace QueuesWf

/-- A write to one seat's queue that leaves it well-formed. -/
theorem setQueue {s : State} (h : QueuesWf s) (seat : Seat) {x : EventQueue} (hx : x.wf) :
    QueuesWf (s.setQueue seat x) := by
  intro other
  rw [queue_setQueue]
  split
  · exact hx
  · exact h other

/-- Every posting is of a catalogue event: OVERFLOW records are the Event Unit's own. -/
theorem posts : KeptByPosts QueuesWf := fun seat e s he h =>
  h.setQueue seat (EventQueue.place_wf (h seat) e he s.uptime)

/-- After a reset every queue is the one that R175 gives. -/
theorem of_reset {s : State} {cause : ResetCause}
    (h : s.queues = Vector.replicate 3 (EventQueue.reset cause)) : QueuesWf s := fun seat => by
  rw [State.queue, h, rd_replicate]
  exact EventQueue.reset_wf cause

/-- What the daylight path and the lighting of a portal do to the queues, they do by posting. -/
theorem source (p : Fin 4) : KeptBySource p (atPortal p) QueuesWf where
  place := fun _ hk => hk
  scope := fun _ _ _ hk => circuit_portal hk
  zone := fun _ _ _ h => h
  channel := fun _ _ _ _ h => h
  enter := fun _ _ _ _ h => h
  post := posts
  selector := fun _ _ h => h
  arbiter := fun _ _ _ h => h
  eval := fun _ _ h => h
  base := fun _ _ h => h

/-- STORE_INVALID is posted to queues that hold RESTARTED (R168). -/
theorem powerUp (cause : ResetCause) (s : State) : QueuesWf (powerUp cause s) := by
  unfold Machine.powerUp
  dsimp only
  split
  · exact postAll_keeps posts _ (by simp [Event.kind]) _ (of_reset rfl)
  · exact of_reset rfl

theorem restartPart (s : State) : QueuesWf (restartPart s) :=
  forEach_keeps (fun p _ u hu => restartPortal_keeps (source p).toKeptByLight u hu) _ (of_reset rfl)

/-- The single writes: queues take postings, lose their head, change their mask, or are reset. -/
theorem commands : KeptByCommands QueuesWf where
  post := posts
  port := fun _ _ _ h => h
  mask := fun seat _ _ h => h.setQueue seat (h seat)
  pop := fun seat _ h => h.setQueue seat (EventQueue.pop_wf (h seat))
  meter := fun _ _ _ _ h => h
  eval := fun _ _ _ h => h
  base := fun _ _ _ h => h
  selector := fun _ _ _ h => h
  arbiter := fun _ _ _ _ h => h
  remove := fun _ _ _ h => h
  push := fun seat hd q s _ h => acceptPush_keeps source (fun _ _ _ h => h) (fun _ _ _ h => h)
    (fun _ _ h => h) seat hd q s h
  zone := fun _ _ _ _ h => h
  channel := fun _ _ _ h => h
  tx := fun _ _ _ h => h
  departed := fun _ _ _ h => h
  station := fun _ _ _ _ _ h => h
  enter := fun _ _ _ _ _ h => h
  begin := fun _ _ h => h
  grant := fun _ _ _ h => h
  ungrant := fun _ _ h => h
  shadow := fun _ _ _ _ _ h => h
  pending := fun seat p s h => by
    rw [makePending_eq]
    exact h
  discard := fun _ _ h => h
  store := fun _ _ _ h => h
  free := fun _ _ h => h
  clock := fun _ _ _ h => h
  powerUp := fun cause s _ => powerUp cause s
  restart := fun s _ => restartPart s
  freezes := fun _ _ h => h
  trip := fun _ _ _ h => h
  pins := fun _ _ h => h
  down := fun _ _ _ h => h
  leave := fun _ _ _ _ _ h => h
  join := fun _ _ _ _ _ h => h
  refresh := fun p s h => by
    unfold refreshShadow
    dsimp only
    split <;> exact h
  activate := fun _ _ _ _ h => h

end QueuesWf

/-- Settles O14: a queue changes by postings, pops, masks and resets alone, and each keeps it as R169 to
R174 describe it. -/
theorem everyStepKeepsTheQueuesWellFormed : Obligations.EveryStepKeepsTheQueuesWellFormed :=
  fun s t hs ht => step_keeps QueuesWf.commands.parts (fun _ _ h => h) s hs t ht

end Sys2Proof.Machine
end

section
/-! PROOFS. What a step runs, and that it always has a next state. -/

namespace Sys2Proof.Machine

/-! ### A step, by what waits -/

/-- The command at the front runs on the state that holds the queue's rest. -/
theorem step_of_pending_cons {s : State} {c : Instr} {rest : List Instr} (h : s.pending = c :: rest) :
    step s = exec c { s with pending := rest } := by
  unfold step
  rw [h]

theorem step_of_pending_nil {s : State} (h : s.pending = []) : step s = .next (idle s) := by
  unfold step
  rw [h]

theorem idle_of_due {s : State} {c : Instr} (h : s.nextDue = some c) :
    idle s = { s with pending := [c], freeIndex := s.freeIndex + 1 } := by
  unfold idle
  rw [h]

theorem idle_of_none_due {s : State} (h : s.nextDue = none) : idle s = { s with now := s.now + 1 } := by
  unfold idle
  rw [h]

/-- Settles O1: by the front of the queue and, where it is empty, by the first event that is due. -/
theorem stepRunsTheFrontCommand : Obligations.StepRunsTheFrontCommand := by
  refine ⟨fun _ _ => step_of_pending_cons rfl, fun s hs => ⟨fun c hc => ?_, fun hn => ?_⟩⟩
  · rw [step_of_pending_nil hs, idle_of_due hc]
  · rw [step_of_pending_nil hs, idle_of_none_due hn]

/-! ### Commands that answer with a next state -/

/-- An outcome that neither faults nor refuses. -/
def Answers (x : Host.Outcome State Fault Refusal) : Prop := ∃ t, x = .next t

theorem answers_next (s : State) : Answers (.next s) := ⟨s, rfl⟩

theorem answers_done (s : State) : Answers (done s) := answers_next (beginTransactions s)

theorem Answers.ite {c : Prop} [Decidable c] {x y : Host.Outcome State Fault Refusal} (hx : Answers x)
    (hy : Answers y) : Answers (if c then x else y) := by
  split
  · exact hx
  · exact hy

section Seats

variable (seat : Seat) (s : State)

theorem execFrameBegin_answers : Answers (execFrameBegin seat s) :=
  .ite (answers_next _) (answers_next _)

theorem execBadCommand_answers (code : Byte) : Answers (execBadCommand seat code s) :=
  .ite (answers_next _) (answers_next _)

theorem execReadRecord_answers (phase : RecordPhase) : Answers (execReadRecord seat phase s) := by
  unfold execReadRecord
  split <;> exact answers_next _

theorem execWriteRecord_answers (bytes : List Byte) : Answers (execWriteRecord seat bytes s) := by
  unfold execWriteRecord
  split <;> exact answers_next _

theorem execWithdrawAny_answers (hd : Header) (bytes : List Byte) :
    Answers (execWithdrawAny seat hd bytes s) :=
  .ite (answers_next _) (answers_done _)

theorem execRestart_answers : Answers (execRestart seat s) :=
  .ite (answers_next _) (answers_done _)

theorem execSeatSilent_answers : Answers (execSeatSilent seat s) :=
  .ite (answers_done _) (answers_next _)

end Seats

section Portals

variable (p : Fin 4) (s : State)

theorem execHoldTimerExpiry_answers : Answers (execHoldTimerExpiry p s) :=
  .ite (.ite (answers_done _) (answers_next _)) (answers_next _)

theorem execMismatch_answers : Answers (execMismatch p s) := by
  unfold execMismatch
  split
  · exact .ite (answers_next _) (answers_next _)
  · exact answers_next s

theorem execDwellExpiry_answers : Answers (execDwellExpiry p s) :=
  .ite (.ite (answers_done _) (answers_next _)) (answers_next _)

theorem execOverlapOnExpiry_answers (z : Fin 5) : Answers (execOverlapOnExpiry p z s) := by
  unfold execOverlapOnExpiry
  split
  · exact answers_next s
  · exact .ite (answers_done _) (answers_next _)

theorem execOverlapOffExpiry_answers (z : Fin 5) : Answers (execOverlapOffExpiry p z s) := by
  unfold execOverlapOffExpiry
  split
  · exact answers_next s
  · exact .ite (answers_done _) (answers_next _)

theorem execConfirmTimeout_answers (z : Fin 5) : Answers (execConfirmTimeout p z s) := by
  unfold execConfirmTimeout
  split
  · exact answers_next s
  · exact .ite (answers_done _) (answers_next _)

theorem execFireInputChange_answers (high : Bool) : Answers (execFireInputChange p high s) :=
  .ite (answers_next _) (answers_next _)

theorem execDebounceExpiry_answers : Answers (execDebounceExpiry p s) :=
  .ite (answers_done _) (answers_next _)

end Portals

section Meters

variable (m : Fin 8) (s : State)

theorem execReadingFrame_answers (burst : Burst) : Answers (execReadingFrame m burst s) := by
  unfold execReadingFrame
  split <;> exact answers_next _

theorem execStaleDeadline_answers : Answers (execStaleDeadline m s) := by
  unfold execStaleDeadline
  dsimp only
  split
  · exact answers_next s
  · exact .ite (.ite (answers_done _) (answers_next _)) (answers_next _)

end Meters

section Lines

variable (n : Fin 4) (s : State)

theorem execFrameSent_answers : Answers (execFrameSent n s) := by
  unfold execFrameSent
  dsimp only
  split
  · exact answers_next s
  · split <;> exact answers_next _

theorem execStatusReply_answers (burst : Burst) : Answers (execStatusReply n burst s) := by
  unfold execStatusReply
  dsimp only
  split <;> exact answers_next _

theorem execReplyWindowExpiry_answers : Answers (execReplyWindowExpiry n s) := by
  unfold execReplyWindowExpiry
  split
  · exact answers_next s
  · split
    · exact answers_next s
    · exact .ite (answers_done _) (answers_next _)

end Lines

theorem execStoreWriteEnd_answers (verified : Bool) (s : State) :
    Answers (execStoreWriteEnd verified s) := by
  unfold execStoreWriteEnd
  split
  · exact answers_next s
  · exact .ite (answers_next _) (answers_next _)

/-- Settles O2, by the command: the meaning of each ends in a next state, or in `done`, on every branch. -/
theorem everyCommandAnswersNext : Obligations.EveryCommandAnswersNext := by
  intro c s
  cases c with
  | powerOn | resetLine | rampInterval => exact answers_done _
  | nop | read | write | takeGrant | seizeGrant | releaseGrant | discard | store | clearCondition
  | frameEnd => exact answers_next _
  | pushClaim | withdraw | takeChannel | setChannel | releaseChannel | trip | tripReset | commit
  | setSeat | claimExpired | adoption => exact answers_done _
  | frameBegin seat => exact execFrameBegin_answers seat s
  | badCommand seat code => exact execBadCommand_answers seat s code
  | readRecord seat phase => exact execReadRecord_answers seat s phase
  | writeRecord seat bytes => exact execWriteRecord_answers seat s bytes
  | withdrawAny seat hd bytes => exact execWithdrawAny_answers seat s hd bytes
  | restart seat => exact execRestart_answers seat s
  | seatSilent seat => exact execSeatSilent_answers seat s
  | readingFrame m burst => exact execReadingFrame_answers m s burst
  | staleDeadline m => exact execStaleDeadline_answers m s
  | holdTimerExpiry p => exact execHoldTimerExpiry_answers p s
  | mismatch p => exact execMismatch_answers p s
  | dwellExpiry p => exact execDwellExpiry_answers p s
  | overlapOnExpiry p z => exact execOverlapOnExpiry_answers p s z
  | overlapOffExpiry p z => exact execOverlapOffExpiry_answers p s z
  | confirmTimeout p z => exact execConfirmTimeout_answers p s z
  | fireInputChange p high => exact execFireInputChange_answers p s high
  | debounceExpiry p => exact execDebounceExpiry_answers p s
  | frameSent n => exact execFrameSent_answers n s
  | statusReply n burst => exact execStatusReply_answers n s burst
  | replyWindowExpiry n => exact execReplyWindowExpiry_answers n s
  | storeWriteEnd verified => exact execStoreWriteEnd_answers verified s

end Sys2Proof.Machine
end
